-- ==== Sys2Proof/Word.lean ====
section
/-! DEFINITION. The word types of the block: the widths of spec/00_scope.md R6. -/

namespace Sys2Proof

/-- A frame byte, a status or checksum byte, the accumulator (R6). -/
abbrev Byte := BitVec 8

/-- The sample result, two's complement (R6, R18). -/
abbrev Word32 := BitVec 32

/-- A command word `cmd[10:0]` (R45). -/
abbrev CmdWord := BitVec 11

/-- The mode code `MODE = MODECFG[2:0]` (R13). -/
abbrev ModeCode := BitVec 3

end Sys2Proof
end

