-- ==== Sys2Proof/Config.lean ====
section
/-! DEFINITION. What one instance of the block fixes, and the free values.
The three checksum parameters are OPEN (spec/00_scope.md R5, spec/41_checksum_engine.md R76): none has a body here.
The free values are the `unspecified_N` of R7. -/

namespace Sys2Proof

/-- The three checksum parameters of R5: the polynomial without its x^8 term (bit i the coefficient of x^i), the
initial value, and the bit order (true: most significant bit first). -/
structure CrcParams where
  poly : Byte
  init : Byte
  msbFirst : Bool
  deriving DecidableEq, Repr

/-- OPEN parameter: which of the 255 non-zero polynomials the instance has. Ranging over `Fin 255` is how the
constraint `CRC_POLY != 0x00` of R5 and R83 is carried (log entry 1). -/
opaque Config.crcPolyIndex : Fin 255

/-- `CRC_POLY`: any non-zero byte (R5, R83). -/
def Config.crcPoly : Byte := BitVec.ofNat 8 (Config.crcPolyIndex.val + 1)

/-- `CRC_INIT`: OPEN (R5). -/
opaque Config.crcInit : Byte

/-- `CRC_MSB_FIRST`: OPEN (R5). -/
opaque Config.crcMsbFirst : Bool

/-- The instance's checksum parameters (R5). -/
def Config.crc : CrcParams :=
  { poly := Config.crcPoly, init := Config.crcInit, msbFirst := Config.crcMsbFirst }

/-- `unspecified_N`: the value of the n-th draw at width w, constrained by nothing (R7, R112; log entry 2). -/
opaque Config.unspecified (w : Nat) : Nat → BitVec w

end Sys2Proof
end

