-- ==== Sys2Proof/Machine/Crc.lean ====
section
/-! DEFINITION. The checksum engine's pure functions (spec/41_checksum_engine.md R77 to R80), for any parameters. The
arithmetic body is the spec's, marked there as general knowledge (log entry 9). -/

namespace Sys2Proof.Machine

/-- `rev8`: bit i of the result is bit 7-i of p (R77). -/
def rev8 (p : Byte) : Byte := p.reverse

/-- `step_msb` (R77). -/
def stepMsb (poly a : Byte) : Byte :=
  if a.getLsbD 7 then (a <<< 1) ^^^ poly else a <<< 1

/-- `step_lsb` (R77). -/
def stepLsb (poly a : Byte) : Byte :=
  if a.getLsbD 0 then (a >>> 1) ^^^ rev8 poly else a >>> 1

/-- The one-bit step in the bit order in use (R78). -/
def crcStep (p : CrcParams) (a : Byte) : Byte :=
  if p.msbFirst then stepMsb p.poly a else stepLsb p.poly a

/-- `crc_update(acc, b)`: XOR the byte in, then eight steps (R78). -/
def crcUpdate (p : CrcParams) (acc b : Byte) : Byte :=
  Nat.iterate (crcStep p) 8 (acc ^^^ b)

/-- `crc_compute(bytes)` (R79). -/
def crcCompute (p : CrcParams) (bs : List Byte) : Byte :=
  bs.foldl (crcUpdate p) p.init

/-- `crc_verify(bytes, e)`: recompute and compare (R80). -/
def crcVerify (p : CrcParams) (bs : List Byte) (e : Byte) : Bool :=
  crcCompute p bs == e

end Sys2Proof.Machine
end

