-- ==== Sys2Proof/Syntax.lean ====
section
/-! DEFINITION. The instruction set: one constructor per row of spec/opcode_table.json (eight command words, eight
frame formats), the Data Modes, the places an encoding stands, and the script lines of spec/30_encoding.md R55, R56. -/

namespace Sys2Proof

/-- One row of the opcode table. A command word's operand is its `arg` field (R45, R47); a frame format's operands are
the frame's fields (R48): `d` the raw sample, `s` the status byte, `c` the received checksum byte. -/
inductive Instr where
  /-- Start a new frame (R67). -/
  | fclr
  /-- Append one frame byte (R68). -/
  | push (b : Byte)
  /-- The generic decode (R100). -/
  | dec
  /-- The fast path (R110). -/
  | fast
  /-- Start a checksum computation (R84). -/
  | cinit
  /-- Fold one byte into the accumulator (R85). -/
  | cupd (b : Byte)
  /-- Compare the accumulator with an expected checksum (R86). -/
  | cvfy (e : Byte)
  /-- Load the Mode Configuration (R66). -/
  | setm (m : BitVec 4)
  /-- MODE 0: 24-bit (R101). -/
  | f24 (d : BitVec 24)
  /-- MODE 1: 24-bit, status (R102). -/
  | f24s (d : BitVec 24) (s : Byte)
  /-- MODE 2: 24-bit, checksum (R103). -/
  | f24c (d : BitVec 24) (c : Byte)
  /-- MODE 3: 24-bit, status, checksum (R104). -/
  | f24sc (d : BitVec 24) (s : Byte) (c : Byte)
  /-- MODE 4: 16-bit (R105). -/
  | f16 (d : BitVec 16)
  /-- MODE 5: 16-bit, status (R106). -/
  | f16s (d : BitVec 16) (s : Byte)
  /-- MODE 6: 16-bit, checksum (R107). -/
  | f16c (d : BitVec 16) (c : Byte)
  /-- MODE 7: 16-bit, status, checksum (R108). -/
  | f16sc (d : BitVec 16) (s : Byte) (c : Byte)
  deriving DecidableEq, Repr

/-- The closed enumeration of the eight Data Modes (R13, R51). -/
inductive DataMode where
  | m24 | m24s | m24c | m24sc | m16 | m16s | m16c | m16sc
  deriving DecidableEq, Repr

/-- Where the encoding of an instruction stands: on the command port (R45), or in the frame buffer under the mode code
that selects its format (R48, R49). -/
inductive Source where
  | port
  | buffer (mode : ModeCode)
  deriving DecidableEq, Repr

/-- What the block's decoders are given: a command word (R45), or a frame's bytes, first byte first, with the mode code
that alone says which format they have (R48, R49). -/
inductive Encoding where
  | command (w : CmdWord)
  | frame (mode : ModeCode) (bytes : List Byte)
  deriving DecidableEq, Repr

/-- A line of a script (R55, R56) with its numbers as written, so that a number out of range can be written and is
refused by `Line.wellFormed`. -/
inductive Line where
  | fclr
  | dec
  | fast
  | cinit
  | push (b : Nat)
  | cupd (b : Nat)
  | cvfy (e : Nat)
  | setm (m : Nat)
  | frame (bs : List Nat)
  | crc (bs : List Nat)
  | verify (e : Nat) (bs : List Nat)
  | setmode (m : DataMode) (wire3 : Bool)
  | reset
  | word (w : Nat)
  deriving DecidableEq, Repr

end Sys2Proof
end

