-- ==== Sys2Proof/Machine/State.lean ====
section
/-! DEFINITION. The state of the block (spec/10_state.md section 2), the model's two fields beside it, and the reasons a
step can stop. -/

namespace Sys2Proof.Machine

/-- Why the MODEL stops. None is a fault of the spec: those (IllegalCommand, FrameOverflow, FrameLength) are taken, and
answer a next state (R117). -/
inductive Fault where
  /-- Raised by the memory operations on an address outside 0..4, which does not exist (R35). Safe. No operation of the
  block raises it: the addresses it generates are below 5. -/
  | noSuchAddress (a : Nat)
  /-- Raised by DEC and FAST when they would read a byte of FB that nothing has written since reset: its content is
  unspecified and held as absent (R16, R136; log entry 3). Safe. It cannot happen in a state that meets `State.Inv`. -/
  | unwrittenByte (a : Nat)
  deriving DecidableEq, Repr

/-- Why the model gives an instruction no meaning. -/
inductive Refusal where
  /-- Raised by an arm of exec whose instruction has no meaning yet. Safe. No arm is such. -/
  | notModelled (mnemonic : String)
  deriving DecidableEq, Repr

/-- The block's inputs at one rising clock edge (R21). -/
structure PortInput where
  rst : Bool
  cmdValid : Bool
  cmd : CmdWord
  deriving DecidableEq, Repr

/-- The frame buffer's written bytes, addresses strictly rising; an unlisted address is absent (R16; log entry 3). -/
abbrev Memory := List Host.Cell

/-- The three faults of R115; each owns one sticky bit of ERR (R15). -/
inductive FaultBit where
  | illegalCommand
  | frameOverflow
  | frameLength
  deriving DecidableEq, Repr

/-- Every piece of state of 10_state.md section 2, then the model's own two. -/
structure State where
  /-- `MODECFG`: bit 0 STATUS_EN, 1 CKSUM_EN, 2 RES16, 3 SPI3W (R12). -/
  modecfg : BitVec 4
  /-- `CNT`, the frame byte pointer (R14). -/
  cnt : BitVec 3
  /-- `ERR`: bit 0 ILL, 1 OVF, 2 LEN (R15). -/
  err : BitVec 3
  /-- `FB`, the frame buffer (R16). -/
  fb : Memory
  /-- `ACC` (R17). -/
  acc : Byte
  /-- `SAMPLE` (R18). -/
  sample : Word32
  /-- `STATUS` (R18). -/
  status : Byte
  /-- `CKSUM` (R18). -/
  cksum : Byte
  /-- `CKERR` (R19). -/
  ckerr : Bool
  /-- `VEQ` (R19). -/
  veq : Bool
  /-- MODEL's own: how many free values have been drawn (R7 `unspecified_N`; log entry 2). -/
  draws : Nat
  /-- MODEL's own: what the host presents at the coming clock edges, first one first (R20, R21; log entry 4). -/
  port : List PortInput
  deriving DecidableEq, Repr

/-- The reset state of R136. `draws` and `port` are the model's (DESIGN CHOICE, log entries 2 and 4). -/
def State.reset : State :=
  { modecfg := 0, cnt := 0, err := 0, fb := [], acc := Config.crc.init, sample := 0, status := 0, cksum := 0,
    ckerr := false, veq := false, draws := 0, port := [] }

end Sys2Proof.Machine
end

