-- ==== Sys2Proof/Machine/Ops.lean ====
section
/-! DEFINITION. The named operations over memory, registers, the fault mechanism, reset and the command port. -/

namespace Sys2Proof.Machine

/-! ### The frame buffer (spec/20_memory.md) -/

/-- FB has five locations, 0 to 4 (R30, R35). -/
def fbSize : Nat := 5

/-- The canonical form: addresses strictly rising and all in 0..4. An unlisted address is absent, so no entry can equal
what it reads as. -/
abbrev Memory.wf (m : Memory) : Prop :=
  m.Pairwise (fun x y => x.1 < y.1) ∧ ∀ c ∈ m, c.1 < fbSize

/-- The byte listed at an address, if any. -/
def Memory.lookup : Memory → Nat → Option Byte
  | [], _ => none
  | (k, b) :: rest, a => if a = k then some b else Memory.lookup rest a

/-- Puts a byte at an address, in address order, over the one listed there if any. -/
def Memory.insert : Memory → Nat → Byte → Memory
  | [], a, v => [(a, v)]
  | (k, b) :: rest, a, v =>
    if a < k then (a, v) :: (k, b) :: rest
    else if a = k then (a, v) :: rest
    else (k, b) :: Memory.insert rest a v

/-- `FB[a]` (R7). Absent bytes and addresses that do not exist stop the model by name (R35; log entry 3). -/
def Memory.readByte (m : Memory) (a : Nat) : Except Fault Byte :=
  if a < fbSize then
    match m.lookup a with
    | some b => .ok b
    | none => .error (.unwrittenByte a)
  else .error (.noSuchAddress a)

/-- `FB[a], FB[a+1], .., FB[a+n-1]`, in address order. -/
def Memory.readBytes (m : Memory) (a : Nat) : Nat → Except Fault (List Byte)
  | 0 => .ok []
  | n + 1 =>
    match m.readByte a with
    | .error f => .error f
    | .ok b =>
      match m.readBytes (a + 1) n with
      | .error f => .error f
      | .ok bs => .ok (b :: bs)

/-- The number a byte sequence spells, first byte most significant (R32). -/
def joinBytes (bs : List Byte) : Nat := bs.foldl (fun v b => v * 256 + b.toNat) 0

/-- `MemRead(a, n)`: big-endian, 8·n bits (R32). -/
def Memory.memRead (m : Memory) (a n : Nat) : Except Fault (BitVec (8 * n)) :=
  match m.readBytes a n with
  | .error f => .error f
  | .ok bs => .ok (BitVec.ofNat (8 * n) (joinBytes bs))

/-- `MemWrite(a, 1, v)` (R7, R34). -/
def Memory.memWrite (m : Memory) (a : Nat) (v : Byte) : Except Fault Memory :=
  if a < fbSize then .ok (m.insert a v) else .error (.noSuchAddress a)

/-- A buffer holding a whole frame from address 0 on. -/
def Memory.ofBytes (bs : List Byte) : Memory :=
  bs.zipIdx.map (fun x => (x.2, x.1))

/-! ### Register writes, one per group of registers an operation writes together -/

/-- `MODECFG <- m`. -/
def State.setModecfg (s : State) (m : BitVec 4) : State := { s with modecfg := m }

/-- `CNT <- n`. -/
def State.setCnt (s : State) (n : BitVec 3) : State := { s with cnt := n }

/-- The buffer and the byte pointer, which PUSH writes together (R68). -/
def State.setFrame (s : State) (m : Memory) (n : BitVec 3) : State := { s with fb := m, cnt := n }

/-- `ACC <- a`. -/
def State.setAcc (s : State) (a : Byte) : State := { s with acc := a }

/-- `VEQ <- v`. -/
def State.setVeq (s : State) (v : Bool) : State := { s with veq := v }

/-- `ERR <- e`. -/
def State.setErr (s : State) (e : BitVec 3) : State := { s with err := e }

/-- The four result registers of R9, which a completed decode writes together. -/
def State.setResults (s : State) (sample : Word32) (status cksum : Byte) (ckerr : Bool) : State :=
  { s with sample := sample, status := status, cksum := cksum, ckerr := ckerr }

/-- Counts drawn free values. -/
def State.setDraws (s : State) (n : Nat) : State := { s with draws := n }

/-- What the host will present. -/
def State.setPort (s : State) (p : List PortInput) : State := { s with port := p }

/-! ### Faults (spec/60_exceptions.md) -/

/-- The cause code of a fault, its bit number in ERR (R115). -/
def FaultBit.code : FaultBit → Nat
  | .illegalCommand => 0
  | .frameOverflow => 1
  | .frameLength => 2

/-- The fault's bit of ERR (R15). -/
def FaultBit.bit (k : FaultBit) : BitVec 3 := 1#3 <<< k.code

/-- Fault entry: the fault's bit of ERR is set and nothing else is written (R117). There is no handler, nothing is
saved, and no operation returns from a fault (R122); only reset clears a bit (R123). -/
def raise (k : FaultBit) (s : State) : Host.Outcome State Fault Refusal :=
  .next (s.setErr (s.err ||| k.bit))

/-! ### Reset (spec/70_reset_and_hazards.md) -/

/-- `rst = 1` at a clock edge: the reset state (R135, R136). What the host presents next and the count of drawn free
values are not the block's state and stay (log entries 2 and 4). -/
def takeReset (s : State) : State :=
  (State.reset.setPort s.port).setDraws s.draws

/-! ### Free values -/

/-- The four result registers become unspecified, each a fresh draw of its width (R112; log entry 2). -/
def State.unspecifyResults (s : State) : State :=
  (s.setResults (Config.unspecified 32 s.draws) (Config.unspecified 8 (s.draws + 1))
    (Config.unspecified 8 (s.draws + 2)) ((Config.unspecified 1 (s.draws + 3)).getLsbD 0)).setDraws (s.draws + 4)

/-! ### The command port (R20, R21) -/

/-- An edge at which the host presents nothing. -/
def PortInput.idle : PortInput := { rst := false, cmdValid := false, cmd := 0 }

/-- An edge at which the host issues a command word. -/
def PortInput.command (w : CmdWord) : PortInput := { rst := false, cmdValid := true, cmd := w }

/-- An edge with `rst = 1`. -/
def PortInput.reset : PortInput := { rst := true, cmdValid := false, cmd := 0 }

/-- The inputs of the coming edge, and the state with them taken off. A host with nothing more to issue holds
`cmd_valid = 0` (R53; log entry 4). -/
def nextInput (s : State) : PortInput × State :=
  match s.port with
  | [] => (PortInput.idle, s)
  | p :: rest => (p, s.setPort rest)

/-- The host presents one more word, before everything else it will present. -/
def State.present (s : State) (w : CmdWord) : State :=
  s.setPort (PortInput.command w :: s.port)

/-- The state in which the bytes stand in FB as a whole frame (R69), the mode code is the one given and SPI3W is kept. -/
def State.loadFrame (s : State) (mode : ModeCode) (bytes : List Byte) : State :=
  (s.setModecfg (s.modecfg.extractLsb' 3 1 ++ mode)).setFrame (Memory.ofBytes bytes) (BitVec.ofNat 3 bytes.length)

end Sys2Proof.Machine
end

