-- ==== Sys2Proof/Machine/Operands.lean ====
section
/-! DEFINITION. The mode flags, the frame-length law, the byte extractor and the sign-extension mux. -/

namespace Sys2Proof.Machine

/-- `MODE = MODECFG[2:0]` (R13). -/
def State.mode (s : State) : ModeCode := s.modecfg.extractLsb' 0 3

/-- `SPI3W = MODECFG[3]`, read by no operation (R12). -/
def State.spi3w (s : State) : Bool := s.modecfg.getLsbD 3

/-- `STATUS_EN = MODE[0]` (R13). -/
def statusEn (mode : ModeCode) : Bool := mode.getLsbD 0

/-- `CKSUM_EN = MODE[1]` (R13). -/
def cksumEn (mode : ModeCode) : Bool := mode.getLsbD 1

/-- `RES16 = MODE[2]` (R13). -/
def res16 (mode : ModeCode) : Bool := mode.getLsbD 2

/-- `n`: the sample's bytes, and the address of the status byte (R91). -/
def sampleLength (mode : ModeCode) : Nat := if res16 mode then 2 else 3

/-- `frame_length(MODE)` (R65). -/
def frameLength (mode : ModeCode) : Nat :=
  sampleLength mode + (statusEn mode).toNat + (cksumEn mode).toNat

/-- `sext_32` (R7, R92). -/
def sext32 {w : Nat} (v : BitVec w) : Word32 := v.signExtend 32

/-- The sign-extension mux on the frame's first bytes (R92). -/
def extractSample (mode : ModeCode) (f : List Byte) : Option Word32 :=
  if res16 mode then
    match f with
    | b0 :: b1 :: _ => some (sext32 (b0 ++ b1))
    | _ => none
  else
    match f with
    | b0 :: b1 :: b2 :: _ => some (sext32 (b0 ++ b1 ++ b2))
    | _ => none

/-- The status byte at address n, or 0x00 when STATUS_EN = 0 (R93). -/
def extractStatus (mode : ModeCode) (f : List Byte) : Option Byte :=
  if statusEn mode then f[sampleLength mode]? else some 0

/-- The received checksum byte at address L-1, or 0x00 when CKSUM_EN = 0 (R93). -/
def extractChecksum (mode : ModeCode) (f : List Byte) : Option Byte :=
  if cksumEn mode then f[frameLength mode - 1]? else some 0

/-- The bytes the checksum covers: all that precede the checksum byte (R94). -/
def coveredBytes (mode : ModeCode) (f : List Byte) : List Byte := f.take (frameLength mode - 1)

end Sys2Proof.Machine
end

