-- ==== Sys2Proof/Machine/Flags.lean ====
section
/-! DEFINITION. The flag computations (CKERR, VEQ), the decode function that yields them with the data, and the block's
outputs. -/

namespace Sys2Proof.Machine

/-- The mismatch output of R94: the recomputed checksum differs from the byte received; 0 when nothing was computed. -/
def mismatch (recomputed : Option Byte) (received : Byte) : Bool :=
  match recomputed with
  | some r => r != received
  | none => false

/-- `(ACC = e)` of R86. -/
def verified (acc e : Byte) : Bool := acc == e

/-- The source's Channel Data with its checksum-failed condition and the checksum recomputed on the way, which is none
when CKSUM_EN = 0 (R90, R96). -/
structure ChannelData where
  sample : Word32
  status : Byte
  cksum : Byte
  ckerr : Bool
  recomputed : Option Byte
  deriving DecidableEq, Repr

/-- `decode(mode, f)` of R96, from the parts of R91 to R95. Its domain is the sequences of exactly `frame_length(mode)`
bytes; outside it there is no result. -/
def frameDecode (p : CrcParams) (mode : ModeCode) (f : List Byte) : Option ChannelData :=
  if f.length = frameLength mode then
    match extractSample mode f, extractStatus mode f, extractChecksum mode f with
    | some sample, some status, some cksum =>
      let recomputed := if cksumEn mode then some (crcCompute p (coveredBytes mode f)) else none
      some { sample, status, cksum, ckerr := mismatch recomputed cksum, recomputed }
    | _, _, _ => none
  else none

/-- What a completed decode writes: the result registers, and ACC when a checksum was recomputed (R100). A mismatch
changes nothing but CKERR (R95). -/
def State.deliver (s : State) (c : ChannelData) : State :=
  (s.setResults c.sample c.status c.cksum c.ckerr).setAcc (c.recomputed.getD s.acc)

/-- The output ports of R21. FB is on none (R16). -/
structure Outputs where
  modecfg : BitVec 4
  flen : BitVec 3
  cnt : BitVec 3
  sample : Word32
  status : Byte
  cksum : Byte
  ckerr : Bool
  veq : Bool
  acc : Byte
  err : BitVec 3
  deriving DecidableEq, Repr

/-- `FLEN = frame_length(MODE)`, combinational (R21, R65). -/
def State.flen (s : State) : BitVec 3 := BitVec.ofNat 3 (frameLength s.mode)

/-- What the host reads at any time; reading changes nothing (R21). -/
def State.outputs (s : State) : Outputs :=
  { modecfg := s.modecfg, flen := s.flen, cnt := s.cnt, sample := s.sample, status := s.status, cksum := s.cksum,
    ckerr := s.ckerr, veq := s.veq, acc := s.acc, err := s.err }

end Sys2Proof.Machine
end

