-- ==== Sys2Proof/Machine/ChecksumEngine.lean ====
section
/-! DEFINITION. The checksum-engine operations (spec/41_checksum_engine.md): CINIT, CUPD, CVFY. -/

namespace Sys2Proof.Machine

/-- `CINIT`: `ACC <- CRC_INIT` (R84). -/
def execCinit (s : State) : Host.Outcome State Fault Refusal :=
  .next (s.setAcc Config.crc.init)

/-- `CUPD b`: `ACC <- crc_update(ACC, b)` (R85). -/
def execCupd (b : Byte) (s : State) : Host.Outcome State Fault Refusal :=
  .next (s.setAcc (crcUpdate Config.crc s.acc b))

/-- `CVFY e`: `VEQ <- (ACC = e)` (R86). -/
def execCvfy (e : Byte) (s : State) : Host.Outcome State Fault Refusal :=
  .next (s.setVeq (verified s.acc e))

end Sys2Proof.Machine
end

