-- ==== Sys2Proof/Machine/FrameDecode.lean ====
section
/-! DEFINITION. The decode operations (spec/42_frame_decode.md): the generic path DEC and the fast path FAST. -/

namespace Sys2Proof.Machine

/-- `DEC`: FrameLength unless `CNT = L`; else decode the L bytes `FB[0..L-1]` under MODE and write the results (R100).
CNT and FB stay as they are (R34). -/
def execDec (s : State) : Host.Outcome State Fault Refusal :=
  if s.cnt.toNat = frameLength s.mode then
    match s.fb.readBytes 0 (frameLength s.mode) with
    | .error f => .fault f
    | .ok bytes =>
      match frameDecode Config.crc s.mode bytes with
      | some c => .next (s.deliver c)
      | none => raise .frameLength s
  else raise .frameLength s

/-- `FAST`: the mode test first (R121): outside mode 0 the four results become unspecified and no fault is raised (R112);
in mode 0, FrameLength unless `CNT = 3`; else the three-byte join and the 24-bit sign extension (R110). -/
def execFast (s : State) : Host.Outcome State Fault Refusal :=
  if s.mode ≠ 0 then .next s.unspecifyResults
  else if s.cnt.toNat ≠ 3 then raise .frameLength s
  else
    match s.fb.memRead 0 3 with
    | .error f => .fault f
    | .ok raw24 => .next (s.setResults (sext32 raw24) 0 0 false)

end Sys2Proof.Machine
end

