-- ==== Sys2Proof/WellFormed.lean ====
section
/-! DEFINITION. Well-formedness. Every operand of Instr has exactly the width of its field (R45, R48), so the one check
on an instruction is WHERE it stands: a command word on the port, a frame format in the buffer under its own mode code.
A script line's numbers are plain naturals, and the ranges of R55 and R56 are checked here. -/

namespace Sys2Proof

/-- The one place an instruction's encoding can stand (R45, R48). -/
def Instr.source : Instr → Source
  | .fclr => .port
  | .push _ => .port
  | .dec => .port
  | .fast => .port
  | .cinit => .port
  | .cupd _ => .port
  | .cvfy _ => .port
  | .setm _ => .port
  | .f24 _ => .buffer 0
  | .f24s _ _ => .buffer 1
  | .f24c _ _ => .buffer 2
  | .f24sc _ _ _ => .buffer 3
  | .f16 _ => .buffer 4
  | .f16s _ _ => .buffer 5
  | .f16c _ _ => .buffer 6
  | .f16sc _ _ _ => .buffer 7

/-- An instruction is well formed at a place when its encoding can stand there: MODE alone selects a frame's format
(R49), and no frame is a command word. -/
def Instr.wellFormedAt (i : Instr) (at_ : Source) : Bool :=
  decide (i.source = at_)

/-- `byte` of R55: a number 0..255. -/
def Line.isByte (n : Nat) : Bool := decide (n ≤ 255)

/-- The ranges of R55 (byte, nibble) and of R56 (1 to 5 frame bytes, an 11-bit raw word). -/
def Line.wellFormed : Line → Bool
  | .fclr => true
  | .dec => true
  | .fast => true
  | .cinit => true
  | .push b => Line.isByte b
  | .cupd b => Line.isByte b
  | .cvfy e => Line.isByte e
  | .setm m => decide (m ≤ 15)
  | .frame bs => decide (1 ≤ bs.length) && decide (bs.length ≤ 5) && bs.all Line.isByte
  | .crc bs => bs.all Line.isByte
  | .verify e bs => Line.isByte e && bs.all Line.isByte
  | .setmode _ _ => true
  | .reset => true
  | .word w => decide (w ≤ 0x7FF)

end Sys2Proof
end

