-- ==== Sys2Proof/Decode.lean ====
section
/-! DEFINITION. The decoders and the encoder (spec/30_encoding.md): command words by the opcode map of R46, frames by
the mode code and the patterns of R48. Decoding is total and rejects by name. -/

namespace Sys2Proof

/-- Why an encoding stands for no instruction. -/
inductive Reject where
  /-- The command word matches no row of the opcode map (R52). The machine then raises IllegalCommand. -/
  | illegalCommand (w : CmdWord)
  /-- The byte count is not the frame length of the mode code (R48). -/
  | frameLength (mode : ModeCode) (got : Nat)
  deriving DecidableEq, Repr

/-- One row of the opcode map of R46; `make` builds the instruction from `arg = cmd[7:0]` (R47). -/
structure CmdRow where
  mnemonic : String
  pat : CmdWord
  mask : CmdWord
  make : Byte → Instr

/-- The opcode map, row by row (R46). -/
def cmdRows : List CmdRow :=
  [ { mnemonic := "FCLR", pat := 0x000, mask := 0x7FF, make := fun _ => .fclr },
    { mnemonic := "PUSH", pat := 0x100, mask := 0x700, make := fun b => .push b },
    { mnemonic := "DEC", pat := 0x200, mask := 0x7FF, make := fun _ => .dec },
    { mnemonic := "FAST", pat := 0x300, mask := 0x7FF, make := fun _ => .fast },
    { mnemonic := "CINIT", pat := 0x400, mask := 0x7FF, make := fun _ => .cinit },
    { mnemonic := "CUPD", pat := 0x500, mask := 0x700, make := fun b => .cupd b },
    { mnemonic := "CVFY", pat := 0x600, mask := 0x700, make := fun e => .cvfy e },
    { mnemonic := "SETM", pat := 0x700, mask := 0x7F0, make := fun m => .setm (m.extractLsb' 0 4) } ]

/-- "a command word w is the operation of a row exactly when (w AND mask) = match" (R46). -/
def CmdRow.hits (w : CmdWord) (r : CmdRow) : Bool := (w &&& r.mask) == r.pat

/-- The command-word decoder (R46, R47, R52). -/
def decodeCommand (w : CmdWord) : Except Reject Instr :=
  match cmdRows.find? (CmdRow.hits w) with
  | some r => .ok (r.make (w.extractLsb' 0 8))
  | none => .error (.illegalCommand w)

/-- The Data Mode a mode code names (R13, R51). -/
def DataMode.ofCode (c : ModeCode) : DataMode :=
  match c.toNat with
  | 0 => .m24
  | 1 => .m24s
  | 2 => .m24c
  | 3 => .m24sc
  | 4 => .m16
  | 5 => .m16s
  | 6 => .m16c
  | _ => .m16sc

/-- The mode code of a Data Mode (R13). -/
def DataMode.code : DataMode → ModeCode
  | .m24 => 0
  | .m24s => 1
  | .m24c => 2
  | .m24sc => 3
  | .m16 => 4
  | .m16s => 5
  | .m16c => 6
  | .m16sc => 7

/-- The frame decoder proper: the format is the mode code's, and the bytes, first one first, are its fields, sample most
significant byte first, then status, then checksum (R48, R49). -/
def decodeFrame (mode : ModeCode) (bytes : List Byte) : Except Reject Instr :=
  match DataMode.ofCode mode, bytes with
  | .m24, [b0, b1, b2] => .ok (.f24 (b0 ++ b1 ++ b2))
  | .m24s, [b0, b1, b2, s] => .ok (.f24s (b0 ++ b1 ++ b2) s)
  | .m24c, [b0, b1, b2, c] => .ok (.f24c (b0 ++ b1 ++ b2) c)
  | .m24sc, [b0, b1, b2, s, c] => .ok (.f24sc (b0 ++ b1 ++ b2) s c)
  | .m16, [b0, b1] => .ok (.f16 (b0 ++ b1))
  | .m16s, [b0, b1, s] => .ok (.f16s (b0 ++ b1) s)
  | .m16c, [b0, b1, c] => .ok (.f16c (b0 ++ b1) c)
  | .m16sc, [b0, b1, s, c] => .ok (.f16sc (b0 ++ b1) s c)
  | _, _ => .error (.frameLength mode bytes.length)

/-- Decoding of whatever the block is given. -/
def decode : Encoding → Except Reject Instr
  | .command w => decodeCommand w
  | .frame mode bytes => decodeFrame mode bytes

/-- The bytes of a 24-bit raw sample, most significant first (R32). -/
def bytesOf24 (d : BitVec 24) : List Byte :=
  [d.extractLsb' 16 8, d.extractLsb' 8 8, d.extractLsb' 0 8]

/-- The bytes of a 16-bit raw sample, most significant first (R32). -/
def bytesOf16 (d : BitVec 16) : List Byte :=
  [d.extractLsb' 8 8, d.extractLsb' 0 8]

/-- A command word from its two fields (R45). -/
def commandWord (op : BitVec 3) (arg : Byte) : CmdWord := op ++ arg

/-- The encoder, written from the opcode map of R46 and the patterns of R48. -/
def encode : Instr → Encoding
  | .fclr => .command (commandWord 0b000 0)
  | .push b => .command (commandWord 0b001 b)
  | .dec => .command (commandWord 0b010 0)
  | .fast => .command (commandWord 0b011 0)
  | .cinit => .command (commandWord 0b100 0)
  | .cupd b => .command (commandWord 0b101 b)
  | .cvfy e => .command (commandWord 0b110 e)
  | .setm m => .command (commandWord 0b111 (0#4 ++ m))
  | .f24 d => .frame 0 (bytesOf24 d)
  | .f24s d s => .frame 1 (bytesOf24 d ++ [s])
  | .f24c d c => .frame 2 (bytesOf24 d ++ [c])
  | .f24sc d s c => .frame 3 (bytesOf24 d ++ [s, c])
  | .f16 d => .frame 4 (bytesOf16 d)
  | .f16s d s => .frame 5 (bytesOf16 d ++ [s])
  | .f16c d c => .frame 6 (bytesOf16 d ++ [c])
  | .f16sc d s c => .frame 7 (bytesOf16 d ++ [s, c])

/-- The n bytes of the frame value `FW`, first byte in the most significant place (R48). -/
def bytesBE : Nat → Nat → List Byte
  | 0, _ => []
  | n + 1, fw => BitVec.ofNat 8 (fw >>> (8 * n)) :: bytesBE n fw

/-- What `nbits` bits of the value `w`, numbered as the opcode table numbers them, stand for. A command word has 11 bits,
so a value below 2^11 in at most 16 bits is one. Any other value is a frame `FW` (R48). No bit of a frame says which
format it has (R49): of the formats of that length the one with the lowest mode code is taken (log entry 8). -/
def tableEncoding (nbits w : Nat) : Option Encoding :=
  if nbits ≤ 16 ∧ w < 2048 then some (.command (BitVec.ofNat 11 w))
  else if 2 ^ nbits ≤ w then none
  else match nbits with
    | 16 => some (.frame 4 (bytesBE 2 w))
    | 24 => some (.frame 0 (bytesBE 3 w))
    | 32 => some (.frame 1 (bytesBE 4 w))
    | 40 => some (.frame 3 (bytesBE 5 w))
    | _ => none

/-- The instruction the decoder reads from an instruction whose bits are w (log entry 8). -/
def decodeTableWord (nbits w : Nat) : Option Instr :=
  match tableEncoding nbits w with
  | some e => (decode e).toOption
  | none => none

end Sys2Proof
end

