-- ==== Sys2Proof/Machine/FrameFormats.lean ====
section
/-! DEFINITION. The eight frame formats (spec/42_frame_decode.md R101 to R108). A frame-format instruction is a frame
that the frame decoder has read under the mode code of its format; its meaning is the effect its rule gives a completed
DEC of that frame, and FrameLength unless CNT is the format's length (log entry 7). -/

namespace Sys2Proof.Machine

/-- A frame of L bytes is decoded when L bytes were pushed; else FrameLength (R101 to R108, "Faults"). -/
def completeFrame (len : Nat) (c : ChannelData) (s : State) : Host.Outcome State Fault Refusal :=
  if s.cnt.toNat = len then .next (s.deliver c) else raise .frameLength s

/-- The results of a format with no checksum byte. -/
def uncheckedData (sample : Word32) (status : Byte) : ChannelData :=
  { sample, status, cksum := 0, ckerr := false, recomputed := none }

/-- The results of a format whose last byte is the checksum of the covered bytes (R94). -/
def checkedData (sample : Word32) (status : Byte) (covered : List Byte) (received : Byte) : ChannelData :=
  { sample, status, cksum := received, ckerr := crcCompute Config.crc covered != received,
    recomputed := some (crcCompute Config.crc covered) }

/-- Format F24 (R101). -/
def execF24 (d : BitVec 24) (s : State) : Host.Outcome State Fault Refusal :=
  completeFrame 3 (uncheckedData (sext32 d) 0) s

/-- Format F24S (R102). -/
def execF24s (d : BitVec 24) (st : Byte) (s : State) : Host.Outcome State Fault Refusal :=
  completeFrame 4 (uncheckedData (sext32 d) st) s

/-- Format F24C (R103). -/
def execF24c (d : BitVec 24) (c : Byte) (s : State) : Host.Outcome State Fault Refusal :=
  completeFrame 4 (checkedData (sext32 d) 0 (bytesOf24 d) c) s

/-- Format F24SC: the status byte is covered (R104, R94). -/
def execF24sc (d : BitVec 24) (st c : Byte) (s : State) : Host.Outcome State Fault Refusal :=
  completeFrame 5 (checkedData (sext32 d) st (bytesOf24 d ++ [st]) c) s

/-- Format F16 (R105). -/
def execF16 (d : BitVec 16) (s : State) : Host.Outcome State Fault Refusal :=
  completeFrame 2 (uncheckedData (sext32 d) 0) s

/-- Format F16S (R106). -/
def execF16s (d : BitVec 16) (st : Byte) (s : State) : Host.Outcome State Fault Refusal :=
  completeFrame 3 (uncheckedData (sext32 d) st) s

/-- Format F16C (R107). -/
def execF16c (d : BitVec 16) (c : Byte) (s : State) : Host.Outcome State Fault Refusal :=
  completeFrame 3 (checkedData (sext32 d) 0 (bytesOf16 d) c) s

/-- Format F16SC (R108). -/
def execF16sc (d : BitVec 16) (st c : Byte) (s : State) : Host.Outcome State Fault Refusal :=
  completeFrame 4 (checkedData (sext32 d) st (bytesOf16 d ++ [st]) c) s

end Sys2Proof.Machine
end

