-- ==== Sys2Proof/Machine/FrameInput.lean ====
section
/-! DEFINITION. The mode and frame-input operations (spec/40_mode_and_frame_input.md): SETM, FCLR, PUSH. -/

namespace Sys2Proof.Machine

/-- `SETM m`: `MODECFG <- m`, bit for bit (R66, R47). -/
def execSetm (m : BitVec 4) (s : State) : Host.Outcome State Fault Refusal :=
  .next (s.setModecfg m)

/-- `FCLR`: `CNT <- 0` (R67). -/
def execFclr (s : State) : Host.Outcome State Fault Refusal :=
  .next (s.setCnt 0)

/-- `PUSH b`: FrameOverflow on a full buffer, else `FB[CNT] <- b` and `CNT <- CNT + 1` (R68). The write happens only when
`CNT <= 4` and otherwise FrameOverflow is raised (R35; log entry 6). -/
def execPush (b : Byte) (s : State) : Host.Outcome State Fault Refusal :=
  if s.cnt.toNat < fbSize then
    match s.fb.memWrite s.cnt.toNat b with
    | .ok m => .next (s.setFrame m (s.cnt + 1))
    | .error f => .fault f
  else raise .frameOverflow s

end Sys2Proof.Machine
end

