-- ==== Sys2Proof/Machine/Dispatch.lean ====
section
/-! DEFINITION. One arm per constructor of Instr. -/

namespace Sys2Proof.Machine

def exec (i : Instr) (s : State) : Host.Outcome State Fault Refusal :=
  match i with
  -- command words, in the table's order
  | .fclr => Sys2Proof.Machine.execFclr s
  | .push b => Sys2Proof.Machine.execPush b s
  | .dec => Sys2Proof.Machine.execDec s
  | .fast => Sys2Proof.Machine.execFast s
  | .cinit => Sys2Proof.Machine.execCinit s
  | .cupd b => Sys2Proof.Machine.execCupd b s
  | .cvfy e => Sys2Proof.Machine.execCvfy e s
  | .setm m => Sys2Proof.Machine.execSetm m s
  -- frame formats, in the table's order
  | .f24 d => Sys2Proof.Machine.execF24 d s
  | .f24s d st => Sys2Proof.Machine.execF24s d st s
  | .f24c d c => Sys2Proof.Machine.execF24c d c s
  | .f24sc d st c => Sys2Proof.Machine.execF24sc d st c s
  | .f16 d => Sys2Proof.Machine.execF16 d s
  | .f16s d st => Sys2Proof.Machine.execF16s d st s
  | .f16c d c => Sys2Proof.Machine.execF16c d c s
  | .f16sc d st c => Sys2Proof.Machine.execF16sc d st c s

end Sys2Proof.Machine
end

