-- ==== Sys2Proof/Machine/Step.lean ====
section
/-! DEFINITION. One step is one rising clock edge (spec/10_state.md R21). -/

namespace Sys2Proof.Machine

/-- One clock edge: reset wins over any command (R135, R121); `cmd_valid = 0` changes nothing (R21); a legal word is
executed; a word that is no operation raises IllegalCommand (R52). -/
def step (s : State) : Host.Outcome State Fault Refusal :=
  let (p, s') := nextInput s
  if p.rst then .next (takeReset s')
  else if p.cmdValid then
    match decode (.command p.cmd) with
    | .ok i => exec i s'
    | .error _ => raise .illegalCommand s'
  else .next s'

/-- The state in which the next step runs the instruction whose table bits are w: a command word is presented on the
port; a frame stands in FB under its mode code with all its bytes pushed, and DEC is presented, which is the operation
that reads and runs a frame (log entries 5 and 8). -/
def State.withFetchWord (s : State) (nbits w : Nat) : State :=
  match tableEncoding nbits w with
  | some (.command c) => s.present c
  | some (.frame mode bytes) => (s.loadFrame mode bytes).present (commandWord 0b010 0)
  | none => s

end Sys2Proof.Machine
end

