-- ==== Sys2Proof/Machine/Script.lean ====
section
/-! DEFINITION. Script lines and pseudo-operations as what they expand to on the command port (spec/30_encoding.md R55,
R56). They add no meaning of their own. -/

namespace Sys2Proof.Machine

/-- The clock edge that issues a command instruction; a frame format is no command word and issues nothing. -/
def issue (i : Instr) : List PortInput :=
  match encode i with
  | .command w => [PortInput.command w]
  | .frame _ _ => []

/-- One issued operation per byte. -/
def issueEach (op : Byte → Instr) (bs : List Nat) : List PortInput :=
  bs.flatMap (fun n => issue (op (BitVec.ofNat 8 n)))

/-- `SETMODE name` is `SETM code`, and `SETMODE name, 3W` is `SETM (8 + code)` (R56). -/
def setmodeOperand (m : DataMode) (wire3 : Bool) : BitVec 4 := BitVec.ofBool wire3 ++ m.code

/-- The clock edges a line stands for (R55, R56). -/
def expandLine : Line → List PortInput
  | .fclr => issue .fclr
  | .dec => issue .dec
  | .fast => issue .fast
  | .cinit => issue .cinit
  | .push b => issue (.push (BitVec.ofNat 8 b))
  | .cupd b => issue (.cupd (BitVec.ofNat 8 b))
  | .cvfy e => issue (.cvfy (BitVec.ofNat 8 e))
  | .setm m => issue (.setm (BitVec.ofNat 4 m))
  | .frame bs => issue .fclr ++ issueEach .push bs
  | .crc bs => issue .cinit ++ issueEach .cupd bs
  | .verify e bs => issue .cinit ++ issueEach .cupd bs ++ issue (.cvfy (BitVec.ofNat 8 e))
  | .setmode m wire3 => issue (.setm (setmodeOperand m wire3))
  | .reset => [PortInput.reset]
  | .word w => [PortInput.command (BitVec.ofNat 11 w)]

end Sys2Proof.Machine
end

