-- ==== Sys2Proof/Safety.lean ====
section
/-! DEFINITION. What a safe run is: the invariant every reachable state meets, and the runs over it. -/

namespace Sys2Proof.Machine

/-- What every reachable state meets: FB is in canonical form, CNT is a legal value (R14), and every byte below CNT was
written by a PUSH (R16). -/
structure State.Inv (s : State) : Prop where
  fbWf : s.fb.wf
  cntLegal : s.cnt.toNat ≤ fbSize
  pushed : ∀ a, a < s.cnt.toNat → ∃ b, s.fb.readByte a = .ok b

/-- An outcome that is a next state: neither a fault of the model nor a refusal. -/
def Safe (o : Host.Outcome State Fault Refusal) : Prop := ∃ t, o = .next t

/-- `k` clock edges. -/
def runSteps (k : Nat) (s : State) : Host.Outcome State Fault Refusal :=
  Host.Core.run Sys2Proof.core k s

end Sys2Proof.Machine
end

