-- ==== Sys2Proof/Certificates/Slice0/Obligations.lean ====
section
/-! DEFINITION. The statements for the provers, with the few definitions they are written in. -/

namespace Sys2Proof.Claims

open Sys2Proof.Machine

/-! ### The words the statements are written in -/

/-- The opcode field `cmd[10:8]` (R45). -/
def opField (w : CmdWord) : BitVec 3 := w.extractLsb' 8 3

/-- The operand field `cmd[7:0]` (R45). -/
def argField (w : CmdWord) : Byte := w.extractLsb' 0 8

/-- The state s at an edge at which the host issues the word w, with `rest` to come after it. -/
def presenting (s : State) (w : CmdWord) (rest : List PortInput) : State :=
  { s with port := { rst := false, cmdValid := true, cmd := w } :: rest }

/-- s with bit `bit` of ERR set and nothing else written (R117). -/
def withErr (s : State) (bit : BitVec 3) : State := { s with err := s.err ||| bit }

/-- The words R52 calls illegal. -/
def illegalWord (w : CmdWord) : Bool :=
  ((opField w == 0 || opField w == 2 || opField w == 3 || opField w == 4) && argField w != 0) ||
    (opField w == 7 && w.extractLsb' 4 4 != 0)

/-- The byte at address a of FB is b. -/
def holds (s : State) (a : Nat) (b : Byte) : Prop := s.fb.readByte a = .ok b

/-- Every byte of FB reads the same in the two states. -/
def sameBytes (s t : State) : Prop := ∀ a, t.fb.readByte a = s.fb.readByte a

/-- The block's own state (10_state.md section 2) is the same in the two states, FB by what its bytes read as. -/
def sameBlock (s t : State) : Prop :=
  t.modecfg = s.modecfg ∧ t.cnt = s.cnt ∧ t.err = s.err ∧ sameBytes s t ∧ t.acc = s.acc ∧ t.sample = s.sample ∧
    t.status = s.status ∧ t.cksum = s.cksum ∧ t.ckerr = s.ckerr ∧ t.veq = s.veq

/-- The outcome with its next state, if it has one, changed by f. -/
def mapNext (f : State → State) : Host.Outcome State Fault Refusal → Host.Outcome State Fault Refusal
  | .next t => .next (f t)
  | .fault x => .fault x
  | .refused r => .refused r

/-- The bytes the PUSH words among these inputs carry, in order. -/
def pushedBytes : List PortInput → List Byte
  | [] => []
  | p :: rest =>
    match p.rst, p.cmdValid, decode (.command p.cmd) with
    | false, true, .ok (.push b) => b :: pushedBytes rest
    | _, _, _ => pushedBytes rest

/-- No FCLR and no reset at this edge. -/
def keepsFrame (p : PortInput) : Prop :=
  p.rst = false ∧ (p.cmdValid = true → decode (.command p.cmd) ≠ .ok .fclr)

/-- What happens at this edge is among the things R87 allows between CINIT and CVFY: no reset, no CINIT, no CUPD, and a
DEC only where CKSUM_EN = 0 or the DEC raises FrameLength. -/
def leavesAcc (s : State) (p : PortInput) : Prop :=
  p.rst = false ∧ (p.cmdValid = true → ∀ i, decode (.command p.cmd) = .ok i →
    i ≠ .cinit ∧ (∀ b, i ≠ .cupd b) ∧
      (i = .dec → cksumEn s.mode = false ∨ s.cnt.toNat ≠ frameLength s.mode))

/-- A run from s to t whose CUPD words carry these bytes in order, every other edge being one R87 allows. -/
inductive Folds : State → List Byte → State → Prop where
  | done (s : State) : Folds s [] s
  | cupd (s s' t : State) (b : Byte) (bs : List Byte) (rest : List PortInput)
      (port : s.port = PortInput.command (commandWord 0b101 b) :: rest) (edge : step s = .next s')
      (more : Folds s' bs t) : Folds s (b :: bs) t
  | quiet (s s' t : State) (p : PortInput) (bs : List Byte) (rest : List PortInput)
      (port : s.port = p :: rest) (allowed : leavesAcc s p) (edge : step s = .next s')
      (more : Folds s' bs t) : Folds s bs t

/-- Every single-bit error in any byte sequence changes the checksum (R82). -/
def detectsSingleBitErrors (p : CrcParams) : Prop :=
  ∀ (bs : List Byte) (i : Nat) (b : Byte) (j : Nat), bs[i]? = some b → j < 8 →
    crcCompute p (bs.set i (b ^^^ (1#8 <<< j))) ≠ crcCompute p bs

/-- s with SPI3W set to v (R12). -/
def withSpi3w (v : Bool) (s : State) : State :=
  { s with modecfg := BitVec.ofBool v ++ s.modecfg.extractLsb' 0 3 }

/-- s with other values in the result registers and in VEQ. -/
def withResults (sample : Word32) (status cksum : Byte) (ckerr veq : Bool) (s : State) : State :=
  { s with sample := sample, status := status, cksum := cksum, ckerr := ckerr, veq := veq }

/-- The four result registers of R9 are the same in the two states. -/
def sameResults (s t : State) : Prop :=
  t.sample = s.sample ∧ t.status = s.status ∧ t.cksum = s.cksum ∧ t.ckerr = s.ckerr

/-- s with another frame buffer. -/
def withFb (m : Memory) (s : State) : State := { s with fb := m }

/-- The checksum of the bytes before the checksum byte of a frame f of the mode (R94). -/
def frameChecksum (mode : ModeCode) (f : Nat → Byte) : Byte :=
  crcCompute Config.crc ((List.range (frameLength mode - 1)).map f)

/-- The result registers of a completed decode without a checksum byte: ACC stays. -/
def decoded (s : State) (sample : Word32) (status : Byte) : State :=
  { s with sample := sample, status := status, cksum := 0, ckerr := false }

/-- The result registers of a completed decode whose received checksum is c and whose recomputed one is r. -/
def decodedChecked (s : State) (sample : Word32) (status c r : Byte) : State :=
  { s with sample := sample, status := status, cksum := c, ckerr := decide (r ≠ c), acc := r }

/-- The fault bits a word raises in a state, in the order of checking of R121. -/
def raisedBits (s : State) (w : CmdWord) : BitVec 3 :=
  if illegalWord w then 0b001
  else if opField w = 1 then (if s.cnt = 5 then 0b010 else 0)
  else if opField w = 2 then (if s.cnt.toNat ≠ frameLength s.mode then 0b100 else 0)
  else if opField w = 3 then (if s.mode = 0 ∧ s.cnt ≠ 3 then 0b100 else 0)
  else 0

/-- A command word with operand byte n on the port. -/
def wordInput (pat : CmdWord) (n : Nat) : PortInput :=
  { rst := false, cmdValid := true, cmd := pat ||| (BitVec.ofNat 8 n).setWidth 11 }

end Sys2Proof.Claims

open Sys2Proof Sys2Proof.Machine Sys2Proof.Claims

/-! ### Reset and the clock edge -/

/-- R136, the table of the reset state; the bytes of FB are absent, as R136 says a model treats them. -/
def Obligations.ResetStateIsAsTabled : Prop :=
  State.reset.modecfg = 0b0000 ∧ DataMode.ofCode State.reset.mode = .m24 ∧ State.reset.flen = 3 ∧
    State.reset.spi3w = false ∧ State.reset.cnt = 0 ∧ State.reset.err = 0b000 ∧
    (∀ a b, ¬ holds State.reset a b) ∧
    State.reset.acc = Config.crc.init ∧ State.reset.sample = 0x00000000 ∧ State.reset.status = 0x00 ∧
    State.reset.cksum = 0x00 ∧ State.reset.ckerr = false ∧ State.reset.veq = false

/-- R135: an edge with rst = 1 leaves the reset state, whatever cmd_valid and cmd are. That the inputs still to come stay in
the list `port` is the model's choice of the log entry 4 (R11 says they are no state of the block). -/
def Obligations.ResetEdgeTakesResetState : Prop :=
  ∀ (s : State) (p : PortInput) (rest : List PortInput), s.port = p :: rest → p.rst = true →
    ∃ t, step s = .next t ∧ sameBlock State.reset t ∧ t.port = rest

/-- R20: the block executes exactly the word presented; what the step adds around exec is that the input is taken off the
port. -/
def Obligations.StepExecutesPresentedWord : Prop :=
  ∀ (s : State) (p : PortInput) (rest : List PortInput), s.port = p :: rest → p.rst = false → p.cmdValid = true →
    (∀ i, decode (.command p.cmd) = .ok i → step s = exec i { s with port := rest }) ∧
      (∀ r, decode (.command p.cmd) = .error r → step s = .next (withErr { s with port := rest } 0b001))

/-- R21: cmd_valid = 0 is no operation and no state change. A host with nothing to issue is the model's choice of the
log entry 4. -/
def Obligations.EdgeWithoutCommandChangesNothing : Prop :=
  ∀ s : State, (s.port = [] → step s = .next s) ∧
    (∀ p rest, s.port = p :: rest → p.rst = false → p.cmdValid = false → step s = .next { s with port := rest })

/-! ### Encodings -/

/-- R52: which words are illegal, how many, and their whole effect. -/
def Obligations.IllegalWordsSetOnlyIll : Prop :=
  (∀ w : CmdWord, illegalWord w = true ↔ ∃ r, decode (.command w) = .error r) ∧
    ((List.range 2048).filter (fun n => illegalWord (BitVec.ofNat 11 n))).length = 1260 ∧
    (∀ (s : State) (w : CmdWord) (rest : List PortInput), illegalWord w = true →
      step (presenting s w rest) = .next (withErr { s with port := rest } 0b001))

/-- R46: a word is the operation of a row exactly when (w AND mask) = match, with the operand of R47; the row count. -/
def Obligations.OpcodeMapDecidesEveryWord : Prop :=
  (∀ w : CmdWord,
    (decode (.command w) = .ok .fclr ↔ w &&& 0x7FF = 0x000) ∧
    (∀ b, decode (.command w) = .ok (.push b) ↔ w &&& 0x700 = 0x100 ∧ b = argField w) ∧
    (decode (.command w) = .ok .dec ↔ w &&& 0x7FF = 0x200) ∧
    (decode (.command w) = .ok .fast ↔ w &&& 0x7FF = 0x300) ∧
    (decode (.command w) = .ok .cinit ↔ w &&& 0x7FF = 0x400) ∧
    (∀ b, decode (.command w) = .ok (.cupd b) ↔ w &&& 0x700 = 0x500 ∧ b = argField w) ∧
    (∀ e, decode (.command w) = .ok (.cvfy e) ↔ w &&& 0x700 = 0x600 ∧ e = argField w) ∧
    (∀ m, decode (.command w) = .ok (.setm m) ↔ w &&& 0x7F0 = 0x700 ∧ m = w.extractLsb' 0 4)) ∧
    ((List.range 2048).filter (fun n => (decodeCommand (BitVec.ofNat 11 n)).toOption.isSome)).length = 788

/-- 95_test_vectors.md section 2.8: command words and what they decode as. -/
def Obligations.ListedCommandWordsDecode : Prop :=
  decode (.command 0x000) = .ok .fclr ∧ decode (.command 0x100) = .ok (.push 0x00) ∧
    decode (.command 0x1FF) = .ok (.push 0xFF) ∧ decode (.command 0x200) = .ok .dec ∧
    decode (.command 0x300) = .ok .fast ∧ decode (.command 0x400) = .ok .cinit ∧
    decode (.command 0x5A5) = .ok (.cupd 0xA5) ∧ decode (.command 0x6FF) = .ok (.cvfy 0xFF) ∧
    decode (.command 0x70F) = .ok (.setm 15) ∧ decode (.command 0x710) = .error (.illegalCommand 0x710) ∧
    decode (.frame 3 [0x12, 0x34, 0x56, 0xA5, 0xD0]) = .ok (.f24sc 0x123456 0xA5 0xD0) ∧
    decode (.frame 5 [0x80, 0x00, 0x5A]) = .ok (.f16s 0x8000 0x5A)

/-- R45 to R48: every instruction, with every operand, is read back from its encoding. -/
def Obligations.DecodeReadsBackEveryEncoding : Prop :=
  ∀ i : Instr, decode (encode i) = .ok i

/-- R46, R48: no two encodings stand for one instruction, so no bit of a word or of a frame is dropped. -/
def Obligations.EncodeRebuildsWhatWasDecoded : Prop :=
  ∀ (e : Encoding) (i : Instr), decode e = .ok i → encode i = e

/-- R48: the fields of each frame format as bit fields of FW = MemRead(0, L); no other byte count is a frame. -/
def Obligations.FrameFieldsStandWhereTabled : Prop :=
  (∀ fw : BitVec 24, decode (.frame 0 (bytesBE 3 fw.toNat)) = .ok (.f24 fw)) ∧
    (∀ fw : BitVec 32, decode (.frame 1 (bytesBE 4 fw.toNat)) =
      .ok (.f24s (fw.extractLsb' 8 24) (fw.extractLsb' 0 8))) ∧
    (∀ fw : BitVec 32, decode (.frame 2 (bytesBE 4 fw.toNat)) =
      .ok (.f24c (fw.extractLsb' 8 24) (fw.extractLsb' 0 8))) ∧
    (∀ fw : BitVec 40, decode (.frame 3 (bytesBE 5 fw.toNat)) =
      .ok (.f24sc (fw.extractLsb' 16 24) (fw.extractLsb' 8 8) (fw.extractLsb' 0 8))) ∧
    (∀ fw : BitVec 16, decode (.frame 4 (bytesBE 2 fw.toNat)) = .ok (.f16 fw)) ∧
    (∀ fw : BitVec 24, decode (.frame 5 (bytesBE 3 fw.toNat)) =
      .ok (.f16s (fw.extractLsb' 8 16) (fw.extractLsb' 0 8))) ∧
    (∀ fw : BitVec 24, decode (.frame 6 (bytesBE 3 fw.toNat)) =
      .ok (.f16c (fw.extractLsb' 8 16) (fw.extractLsb' 0 8))) ∧
    (∀ fw : BitVec 32, decode (.frame 7 (bytesBE 4 fw.toNat)) =
      .ok (.f16sc (fw.extractLsb' 16 16) (fw.extractLsb' 8 8) (fw.extractLsb' 0 8))) ∧
    (∀ (mode : ModeCode) (bytes : List Byte), bytes.length ≠ frameLength mode →
      decode (.frame mode bytes) = .error (.frameLength mode bytes.length))

/-- R13: the eight mode codes, their names and their flags. -/
def Obligations.ModeCodesNameTheEightVariants : Prop :=
  [DataMode.m24, .m24s, .m24c, .m24sc, .m16, .m16s, .m16c, .m16sc].map DataMode.code = [0, 1, 2, 3, 4, 5, 6, 7] ∧
    (∀ c : ModeCode, (DataMode.ofCode c).code = c) ∧ (∀ m : DataMode, DataMode.ofCode m.code = m) ∧
    (∀ s : State, s.mode = BitVec.ofBool (res16 s.mode) ++ BitVec.ofBool (cksumEn s.mode) ++
        BitVec.ofBool (statusEn s.mode) ∧
      s.modecfg = BitVec.ofBool s.spi3w ++ s.mode)

/-! ### Memory -/

/-- R32: MemRead(a, n) is big-endian, and reads when every byte it covers can be read. -/
def Obligations.MemReadIsBigEndian : Prop :=
  ∀ (m : Memory) (a n : Nat) (f : Nat → Byte), 1 ≤ n → a + n ≤ 5 →
    (∀ i, i < n → m.readByte (a + i) = .ok (f i)) →
    ∃ v, m.memRead a n = .ok v ∧ ∀ i, i < n → v.extractLsb' (8 * (n - 1 - i)) 8 = f i

/-! ### Mode and frame input -/

/-- R65: the frame-length law, its table, its range, and the output flen. -/
def Obligations.FrameLengthLaw : Prop :=
  (∀ mode : ModeCode, frameLength mode =
      (if mode.getLsbD 2 then 2 else 3) + (mode.getLsbD 0).toNat + (mode.getLsbD 1).toNat ∧
    2 ≤ frameLength mode ∧ frameLength mode ≤ 5) ∧
    [frameLength 0, frameLength 1, frameLength 2, frameLength 3, frameLength 4, frameLength 5, frameLength 6,
      frameLength 7] = [3, 4, 4, 5, 2, 3, 3, 4] ∧
    (∀ s : State, s.outputs.flen.toNat = frameLength (s.modecfg.extractLsb' 0 3))

/-- R66: SETM, as an instruction and as every word of its opcode. -/
def Obligations.SetmLoadsModeConfiguration : Prop :=
  (∀ (s : State) (m : BitVec 4), exec (.setm m) s = .next { s with modecfg := m }) ∧
    (∀ (s : State) (w : CmdWord) (rest : List PortInput), opField w = 7 →
      step (presenting s w rest) =
        if w.extractLsb' 4 4 = 0 then .next { s with modecfg := w.extractLsb' 0 4, port := rest }
        else .next (withErr { s with port := rest } 0b001))

/-- R67: FCLR, as an instruction and as every word of its opcode. -/
def Obligations.FclrEmptiesTheFrame : Prop :=
  (∀ s : State, exec .fclr s = .next { s with cnt := 0 }) ∧
    (∀ (s : State) (w : CmdWord) (rest : List PortInput), opField w = 0 →
      step (presenting s w rest) =
        if argField w = 0 then .next { s with cnt := 0, port := rest }
        else .next (withErr { s with port := rest } 0b001))

/-- R68: PUSH stores at CNT and advances it; on a full buffer it raises FrameOverflow; every word of its opcode is one. -/
def Obligations.PushAppendsOneByte : Prop :=
  (∀ (s : State) (b : Byte), s.cnt.toNat ≤ 4 →
    ∃ m, exec (.push b) s = .next { s with fb := m, cnt := s.cnt + 1 } ∧ m.readByte s.cnt.toNat = .ok b ∧
      ∀ a, a ≠ s.cnt.toNat → m.readByte a = s.fb.readByte a) ∧
    (∀ (s : State) (b : Byte), s.cnt = 5 → exec (.push b) s = .next (withErr s 0b010)) ∧
    (∀ (s : State) (w : CmdWord) (rest : List PortInput), opField w = 1 →
      step (presenting s w rest) = exec (.push (argField w)) { s with port := rest })

/-- R69: after FCLR and k <= 5 PUSHes, with anything but FCLR and reset between, CNT = k, the bytes pushed stand below k
and the others are whatever they were. -/
def Obligations.PushesAfterFclrStandInOrder : Prop :=
  ∀ (s : State) (ins : List PortInput), s.port = PortInput.command 0x000 :: ins → (∀ p ∈ ins, keepsFrame p) →
    (pushedBytes ins).length ≤ 5 →
    ∃ t, runSteps (ins.length + 1) s = .next t ∧ t.cnt.toNat = (pushedBytes ins).length ∧
      (∀ i b, (pushedBytes ins)[i]? = some b → t.fb.readByte i = .ok b) ∧
      (∀ a, (pushedBytes ins).length ≤ a → t.fb.readByte a = s.fb.readByte a)

/-! ### The checksum engine -/

/-- R77, R78: the one-bit steps bit by bit, that the two bit orders are mirror images, and the update as eight steps. The
algorithm is marked in the spec as general knowledge (log entry 9). -/
def Obligations.CrcStepsBitByBit : Prop :=
  (∀ poly a : Byte,
    (∀ i, i < 8 → (rev8 poly).getLsbD i = poly.getLsbD (7 - i)) ∧
      (∀ i, i < 8 → (stepMsb poly a).getLsbD i =
        ((decide (1 ≤ i) && a.getLsbD (i - 1)) ^^ (a.getLsbD 7 && poly.getLsbD i))) ∧
      (∀ i, i < 8 → (stepLsb poly a).getLsbD i =
        ((decide (i ≤ 6) && a.getLsbD (i + 1)) ^^ (a.getLsbD 0 && poly.getLsbD (7 - i)))) ∧
      stepLsb poly (rev8 a) = rev8 (stepMsb poly a)) ∧
    (∀ (p : CrcParams) (acc b : Byte),
      crcUpdate p acc b = Nat.iterate (if p.msbFirst then stepMsb p.poly else stepLsb p.poly) 8 (acc ^^^ b))

/-- R78, R83: the update is an XOR-linear function of acc XOR b, which is what makes a 256-entry table or eight XOR trees
implementations of it. -/
def Obligations.CrcUpdateIsLinear : Prop :=
  ∀ (p : CrcParams) (a a' b b' : Byte),
    crcUpdate p a b = crcUpdate p 0 (a ^^^ b) ∧
      crcUpdate p (a ^^^ a') (b ^^^ b') = crcUpdate p a b ^^^ crcUpdate p a' b'

/-- R79, R80, R81: compute folds the bytes first to last from the initial value; verify recomputes and compares, so it
accepts exactly what compute gives. -/
def Obligations.ComputeFoldsAndVerifyCompares : Prop :=
  ∀ (p : CrcParams) (bs : List Byte) (b e : Byte),
    crcCompute p [] = p.init ∧ crcCompute p (bs ++ [b]) = crcUpdate p (crcCompute p bs) b ∧
      (crcVerify p bs e = true ↔ crcCompute p bs = e) ∧ crcVerify p bs (crcCompute p bs) = true

/-- R82: on this instance every single-bit error in the covered bytes is caught. -/
def Obligations.SingleBitErrorsAreCaught : Prop :=
  ∀ (bs : List Byte) (i : Nat) (b : Byte) (j : Nat), bs[i]? = some b → j < 8 →
    crcCompute Config.crc (bs.set i (b ^^^ (1#8 <<< j))) ≠ crcCompute Config.crc bs ∧
      crcVerify Config.crc (bs.set i (b ^^^ (1#8 <<< j))) (crcCompute Config.crc bs) = false

/-- R83: CRC_POLY != 0 is what R82 needs and all it needs, in either bit order and for any initial value; with the zero
polynomial every non-empty message has checksum zero. -/
def Obligations.NonzeroPolynomialIsExactlyWhatIsNeeded : Prop :=
  ∀ p : CrcParams, (detectsSingleBitErrors p ↔ p.poly ≠ 0) ∧
    (p.poly = 0 → ∀ (b : Byte) (bs : List Byte), crcCompute p (b :: bs) = 0)

/-- R84: CINIT, as an instruction and as every word of its opcode. -/
def Obligations.CinitLoadsInitialValue : Prop :=
  (∀ s : State, exec .cinit s = .next { s with acc := Config.crc.init }) ∧
    (∀ (s : State) (w : CmdWord) (rest : List PortInput), opField w = 4 →
      step (presenting s w rest) =
        if argField w = 0 then .next { s with acc := Config.crc.init, port := rest }
        else .next (withErr { s with port := rest } 0b001))

/-- R85: CUPD, as an instruction and as every word of its opcode. -/
def Obligations.CupdFoldsOneByte : Prop :=
  (∀ (s : State) (b : Byte), exec (.cupd b) s = .next { s with acc := crcUpdate Config.crc s.acc b }) ∧
    (∀ (s : State) (w : CmdWord) (rest : List PortInput), opField w = 5 →
      step (presenting s w rest) =
        .next { s with acc := crcUpdate Config.crc s.acc (argField w), port := rest })

/-- R86: CVFY, as an instruction and as every word of its opcode. -/
def Obligations.CvfyComparesAccumulator : Prop :=
  (∀ (s : State) (e : Byte), exec (.cvfy e) s = .next { s with veq := decide (s.acc = e) }) ∧
    (∀ (s : State) (w : CmdWord) (rest : List PortInput), opField w = 6 →
      step (presenting s w rest) = .next { s with veq := decide (s.acc = argField w), port := rest })

/-- R87: after CINIT and the CUPDs, with only what R87 allows between, ACC is crc_compute of their bytes, and CVFY then
gives crc_verify. -/
def Obligations.HostComputesAndVerifies : Prop :=
  ∀ (s s' t : State) (rest : List PortInput) (bs : List Byte),
    s.port = PortInput.command 0x400 :: rest → step s = .next s' → Folds s' bs t →
    t.acc = crcCompute Config.crc bs ∧
      ∀ e, exec (.cvfy e) t = .next { t with veq := crcVerify Config.crc bs e }

/-! ### Frame decode -/

/-- R92: the join and the sign-extension mux, bit by bit and as numbers, with the source's four examples. -/
def Obligations.SampleIsSignExtended : Prop :=
  (∀ (mode : ModeCode) (b0 b1 b2 : Byte) (f : List Byte), extractSample mode (b0 :: b1 :: b2 :: f) =
      some (if res16 mode then sext32 (b0 ++ b1) else sext32 (b0 ++ b1 ++ b2))) ∧
    (∀ raw : BitVec 16,
      (∀ i, i < 32 → (sext32 raw).getLsbD i = if i < 16 then raw.getLsbD i else raw.getLsbD 15) ∧
      (sext32 raw).toInt = (raw.toNat : Int) - 65536 * (raw.getLsbD 15).toNat ∧
      -32768 ≤ (sext32 raw).toInt ∧ (sext32 raw).toInt ≤ 32767) ∧
    (∀ raw : BitVec 24,
      (∀ i, i < 32 → (sext32 raw).getLsbD i = if i < 24 then raw.getLsbD i else raw.getLsbD 23) ∧
      (sext32 raw).toInt = (raw.toNat : Int) - 16777216 * (raw.getLsbD 23).toNat ∧
      -8388608 ≤ (sext32 raw).toInt ∧ (sext32 raw).toInt ≤ 8388607) ∧
    (sext32 0x8000#16).toInt = -32768 ∧ (sext32 0x7FFF#16).toInt = 32767 ∧
    (sext32 0x800000#24).toInt = -8388608 ∧ (sext32 0xFFFFFF#24).toInt = -1

/-- R100 with R91, R93, R94: DEC on a frame of L bytes f, in closed form over the flags; FrameLength on any other count;
every word of its opcode. -/
def Obligations.DecDecodesTheFrame : Prop :=
  (∀ (s : State) (f : Nat → Byte), s.cnt.toNat = frameLength s.mode →
    (∀ i, i < frameLength s.mode → holds s i (f i)) →
    exec .dec s = .next { s with
      sample := if res16 s.mode then sext32 (f 0 ++ f 1) else sext32 (f 0 ++ f 1 ++ f 2)
      status := if statusEn s.mode then f (if res16 s.mode then 2 else 3) else 0
      cksum := if cksumEn s.mode then f (frameLength s.mode - 1) else 0
      ckerr := cksumEn s.mode && decide (frameChecksum s.mode f ≠ f (frameLength s.mode - 1))
      acc := if cksumEn s.mode then frameChecksum s.mode f else s.acc }) ∧
    (∀ s : State, s.cnt.toNat ≠ frameLength s.mode → exec .dec s = .next (withErr s 0b100)) ∧
    (∀ (s : State) (w : CmdWord) (rest : List PortInput), opField w = 2 →
      step (presenting s w rest) =
        if argField w = 0 then exec .dec { s with port := rest }
        else .next (withErr { s with port := rest } 0b001))

/-- R101: format F24. That the format is also run as an instruction of its own is the model's choice of the log entry 7; R101
speaks of a completed DEC. -/
def Obligations.FormatF24 : Prop :=
  ∀ s : State, s.mode = 0 →
    (s.cnt.toNat = 3 → ∀ d, exec (.f24 d) s = .next (decoded s (sext32 d) 0)) ∧
    (s.cnt.toNat = 3 → ∀ b0 b1 b2, holds s 0 b0 → holds s 1 b1 → holds s 2 b2 →
      decode (.frame s.mode [b0, b1, b2]) = .ok (.f24 (b0 ++ b1 ++ b2)) ∧
        exec .dec s = .next (decoded s (sext32 (b0 ++ b1 ++ b2)) 0)) ∧
    (s.cnt.toNat ≠ 3 → exec .dec s = .next (withErr s 0b100) ∧ ∀ d, exec (.f24 d) s = .next (withErr s 0b100))

/-- R102: format F24S. That the format is also run as an instruction of
its own is the model's choice of the log entry 7; R102 speaks of a completed DEC. -/
def Obligations.FormatF24S : Prop :=
  ∀ s : State, s.mode = 1 →
    (s.cnt.toNat = 4 → ∀ d st, exec (.f24s d st) s = .next (decoded s (sext32 d) st)) ∧
    (s.cnt.toNat = 4 → ∀ b0 b1 b2 b3, holds s 0 b0 → holds s 1 b1 → holds s 2 b2 → holds s 3 b3 →
      decode (.frame s.mode [b0, b1, b2, b3]) = .ok (.f24s (b0 ++ b1 ++ b2) b3) ∧
        exec .dec s = .next (decoded s (sext32 (b0 ++ b1 ++ b2)) b3)) ∧
    (s.cnt.toNat ≠ 4 → exec .dec s = .next (withErr s 0b100) ∧
      ∀ d st, exec (.f24s d st) s = .next (withErr s 0b100))

/-- R103: format F24C. That the format is also run as an instruction of
its own is the model's choice of the log entry 7; R103 speaks of a completed DEC. -/
def Obligations.FormatF24C : Prop :=
  ∀ s : State, s.mode = 2 →
    (s.cnt.toNat = 4 → ∀ (b0 b1 b2 c : Byte), exec (.f24c (b0 ++ b1 ++ b2) c) s =
      .next (decodedChecked s (sext32 (b0 ++ b1 ++ b2)) 0 c (crcCompute Config.crc [b0, b1, b2]))) ∧
    (s.cnt.toNat = 4 → ∀ b0 b1 b2 b3, holds s 0 b0 → holds s 1 b1 → holds s 2 b2 → holds s 3 b3 →
      decode (.frame s.mode [b0, b1, b2, b3]) = .ok (.f24c (b0 ++ b1 ++ b2) b3) ∧
        exec .dec s = .next (decodedChecked s (sext32 (b0 ++ b1 ++ b2)) 0 b3
          (crcCompute Config.crc [b0, b1, b2]))) ∧
    (s.cnt.toNat ≠ 4 → exec .dec s = .next (withErr s 0b100) ∧
      ∀ d c, exec (.f24c d c) s = .next (withErr s 0b100))

/-- R104: format F24SC; the status byte is covered by the checksum. That the format is also run as an instruction of
its own is the model's choice of the log entry 7; R104 speaks of a completed DEC. -/
def Obligations.FormatF24SC : Prop :=
  ∀ s : State, s.mode = 3 →
    (s.cnt.toNat = 5 → ∀ (b0 b1 b2 st c : Byte), exec (.f24sc (b0 ++ b1 ++ b2) st c) s =
      .next (decodedChecked s (sext32 (b0 ++ b1 ++ b2)) st c (crcCompute Config.crc [b0, b1, b2, st]))) ∧
    (s.cnt.toNat = 5 → ∀ b0 b1 b2 b3 b4, holds s 0 b0 → holds s 1 b1 → holds s 2 b2 → holds s 3 b3 → holds s 4 b4 →
      decode (.frame s.mode [b0, b1, b2, b3, b4]) = .ok (.f24sc (b0 ++ b1 ++ b2) b3 b4) ∧
        exec .dec s = .next (decodedChecked s (sext32 (b0 ++ b1 ++ b2)) b3 b4
          (crcCompute Config.crc [b0, b1, b2, b3]))) ∧
    (s.cnt.toNat ≠ 5 → exec .dec s = .next (withErr s 0b100) ∧
      ∀ d st c, exec (.f24sc d st c) s = .next (withErr s 0b100))

/-- R105: format F16. That the format is also run as an instruction of
its own is the model's choice of the log entry 7; R105 speaks of a completed DEC. -/
def Obligations.FormatF16 : Prop :=
  ∀ s : State, s.mode = 4 →
    (s.cnt.toNat = 2 → ∀ d, exec (.f16 d) s = .next (decoded s (sext32 d) 0)) ∧
    (s.cnt.toNat = 2 → ∀ b0 b1, holds s 0 b0 → holds s 1 b1 →
      decode (.frame s.mode [b0, b1]) = .ok (.f16 (b0 ++ b1)) ∧
        exec .dec s = .next (decoded s (sext32 (b0 ++ b1)) 0)) ∧
    (s.cnt.toNat ≠ 2 → exec .dec s = .next (withErr s 0b100) ∧ ∀ d, exec (.f16 d) s = .next (withErr s 0b100))

/-- R106: format F16S. That the format is also run as an instruction of
its own is the model's choice of the log entry 7; R106 speaks of a completed DEC. -/
def Obligations.FormatF16S : Prop :=
  ∀ s : State, s.mode = 5 →
    (s.cnt.toNat = 3 → ∀ d st, exec (.f16s d st) s = .next (decoded s (sext32 d) st)) ∧
    (s.cnt.toNat = 3 → ∀ b0 b1 b2, holds s 0 b0 → holds s 1 b1 → holds s 2 b2 →
      decode (.frame s.mode [b0, b1, b2]) = .ok (.f16s (b0 ++ b1) b2) ∧
        exec .dec s = .next (decoded s (sext32 (b0 ++ b1)) b2)) ∧
    (s.cnt.toNat ≠ 3 → exec .dec s = .next (withErr s 0b100) ∧
      ∀ d st, exec (.f16s d st) s = .next (withErr s 0b100))

/-- R107: format F16C. That the format is also run as an instruction of
its own is the model's choice of the log entry 7; R107 speaks of a completed DEC. -/
def Obligations.FormatF16C : Prop :=
  ∀ s : State, s.mode = 6 →
    (s.cnt.toNat = 3 → ∀ (b0 b1 c : Byte), exec (.f16c (b0 ++ b1) c) s =
      .next (decodedChecked s (sext32 (b0 ++ b1)) 0 c (crcCompute Config.crc [b0, b1]))) ∧
    (s.cnt.toNat = 3 → ∀ b0 b1 b2, holds s 0 b0 → holds s 1 b1 → holds s 2 b2 →
      decode (.frame s.mode [b0, b1, b2]) = .ok (.f16c (b0 ++ b1) b2) ∧
        exec .dec s = .next (decodedChecked s (sext32 (b0 ++ b1)) 0 b2 (crcCompute Config.crc [b0, b1]))) ∧
    (s.cnt.toNat ≠ 3 → exec .dec s = .next (withErr s 0b100) ∧
      ∀ d c, exec (.f16c d c) s = .next (withErr s 0b100))

/-- R108: format F16SC; the status byte is covered by the checksum. That the format is also run as an instruction of
its own is the model's choice of the log entry 7; R108 speaks of a completed DEC. -/
def Obligations.FormatF16SC : Prop :=
  ∀ s : State, s.mode = 7 →
    (s.cnt.toNat = 4 → ∀ (b0 b1 st c : Byte), exec (.f16sc (b0 ++ b1) st c) s =
      .next (decodedChecked s (sext32 (b0 ++ b1)) st c (crcCompute Config.crc [b0, b1, st]))) ∧
    (s.cnt.toNat = 4 → ∀ b0 b1 b2 b3, holds s 0 b0 → holds s 1 b1 → holds s 2 b2 → holds s 3 b3 →
      decode (.frame s.mode [b0, b1, b2, b3]) = .ok (.f16sc (b0 ++ b1) b2 b3) ∧
        exec .dec s = .next (decodedChecked s (sext32 (b0 ++ b1)) b2 b3
          (crcCompute Config.crc [b0, b1, b2]))) ∧
    (s.cnt.toNat ≠ 4 → exec .dec s = .next (withErr s 0b100) ∧
      ∀ d st c, exec (.f16sc d st c) s = .next (withErr s 0b100))

/-- R110 with R112: FAST in its mode, with the wrong count, and outside its mode, where the four results are free values
(nothing is said of them) and nothing else of the block changes; every word of its opcode. -/
def Obligations.FastDecodesInItsMode : Prop :=
  (∀ (s : State) (b0 b1 b2 : Byte), s.mode = 0 → s.cnt = 3 → holds s 0 b0 → holds s 1 b1 → holds s 2 b2 →
    exec .fast s = .next (decoded s (sext32 (b0 ++ b1 ++ b2)) 0)) ∧
    (∀ s : State, s.mode = 0 → s.cnt ≠ 3 → exec .fast s = .next (withErr s 0b100)) ∧
    (∀ s : State, s.mode ≠ 0 → ∃ sample status cksum ckerr draws, exec .fast s =
      .next { s with sample := sample, status := status, cksum := cksum, ckerr := ckerr, draws := draws }) ∧
    (∀ (s : State) (w : CmdWord) (rest : List PortInput), opField w = 3 →
      step (presenting s w rest) =
        if argField w = 0 then exec .fast { s with port := rest }
        else .next (withErr { s with port := rest } 0b001))

/-- R111: in mode 0 the fast path and the generic path give the same next state in every register. The spec marks this
sentence as its own inference, '[derived: from rule R100, rule R101 and rule R110]'. -/
def Obligations.FastEqualsDecInModeZero : Prop :=
  ∀ s : State, s.mode = 0 → exec .fast s = exec .dec s

/-- R96, R101 to R108: DEC is the frame format that the frame decoder reads from FB under MODE, whichever it is. -/
def Obligations.DecRunsTheFrameItReads : Prop :=
  ∀ (s : State) (bytes : List Byte), s.cnt.toNat = frameLength s.mode →
    s.fb.readBytes 0 (frameLength s.mode) = .ok bytes →
    ∃ i, decode (.frame s.mode bytes) = .ok i ∧ i.wellFormedAt (.buffer s.mode) = true ∧ exec .dec s = exec i s

/-- R34: a DEC repeated gives the same results and leaves the same state, and in mode 0 a FAST after it does too. -/
def Obligations.DecIsIdempotent : Prop :=
  ∀ s t : State, exec .dec s = .next t →
    exec .dec t = .next t ∧ (s.mode = 0 → exec .fast t = .next t)

/-- R95: with the received checksum byte replaced by the recomputed one, everything but the checksum byte shown and the
mismatch bit is written the same, and a mismatch sets no bit of ERR (R119). -/
def Obligations.MismatchSuppressesNothing : Prop :=
  ∀ (s : State) (f : Nat → Byte), cksumEn s.mode = true → s.cnt.toNat = frameLength s.mode →
    (∀ i, i < frameLength s.mode → holds s i (f i)) →
    ∃ t, exec .dec s = .next t ∧ t.err = s.err ∧ t.cksum = f (frameLength s.mode - 1) ∧
      t.ckerr = decide (t.acc ≠ t.cksum) ∧
      ∀ m : Memory, (∀ i, i < frameLength s.mode - 1 → m.readByte i = .ok (f i)) →
        m.readByte (frameLength s.mode - 1) = .ok t.acc →
        exec .dec (withFb m s) = .next (withFb m { t with cksum := t.acc, ckerr := false })

/-! ### What changes and what does not -/

/-- R23: FCLR, SETM, CINIT, CUPD and CVFY write one register each and no memory. -/
def Obligations.RegisterOperationsFrame : Prop :=
  ∀ s t : State,
    (exec .fclr s = .next t → t = { s with cnt := t.cnt } ∧ sameBytes s t) ∧
    (∀ m, exec (.setm m) s = .next t → t = { s with modecfg := t.modecfg } ∧ sameBytes s t) ∧
    (exec .cinit s = .next t → t = { s with acc := t.acc } ∧ sameBytes s t) ∧
    (∀ b, exec (.cupd b) s = .next t → t = { s with acc := t.acc } ∧ sameBytes s t) ∧
    (∀ e, exec (.cvfy e) s = .next t → t = { s with veq := t.veq } ∧ sameBytes s t)

/-- R23, R68: PUSH stores only at address CNT, and only when CNT is below 5; besides it writes CNT, or ERR. -/
def Obligations.PushFrame : Prop :=
  ∀ (s t : State) (b : Byte), exec (.push b) s = .next t →
    t = { s with fb := t.fb, cnt := t.cnt, err := t.err } ∧
      (∀ a, ¬ (s.cnt.toNat < 5 ∧ a = s.cnt.toNat) → t.fb.readByte a = s.fb.readByte a) ∧
      (s.cnt.toNat < 5 → t.err = s.err) ∧ (¬ s.cnt.toNat < 5 → t.cnt = s.cnt ∧ t.err = s.err ||| 0b010)

/-- R23: DEC, FAST and the eight formats write results, ACC or the LEN bit, and no memory; a fault writes its bit only;
ACC is written only with a checksum byte in the frame; free values are drawn only by FAST outside mode 0. -/
def Obligations.DecodingFrame : Prop :=
  ∀ (i : Instr) (s t : State),
    (i = .dec ∨ i = .fast ∨ ∃ mode, i.wellFormedAt (.buffer mode) = true) → exec i s = .next t →
    t.modecfg = s.modecfg ∧ t.cnt = s.cnt ∧ t.veq = s.veq ∧ t.port = s.port ∧ sameBytes s t ∧
      (t.err = s.err ∨ t = withErr s 0b100) ∧
      ((∀ mode, i.wellFormedAt (.buffer mode) = true → cksumEn mode = false) →
        (i = .dec → cksumEn s.mode = false) → t.acc = s.acc) ∧
      (¬ (i = .fast ∧ s.mode ≠ 0) → t.draws = s.draws)

/-- R12, R14 to R19, R23: which operations can write each register, and which bit of ERR each can set (ILL is set by no
operation: a word that is none sets it, see IllegalWordsSetOnlyIll). -/
def Obligations.EachRegisterHasItsWriters : Prop :=
  ∀ (i : Instr) (s t : State), exec i s = .next t →
    (t.modecfg ≠ s.modecfg → ∃ m, i = .setm m) ∧
      (t.cnt ≠ s.cnt → i = .fclr ∨ (∃ b, i = .push b ∧ t.cnt = s.cnt + 1)) ∧
      (t.fb ≠ s.fb → ∃ b, i = .push b) ∧
      (t.veq ≠ s.veq → ∃ e, i = .cvfy e) ∧
      (t.acc ≠ s.acc → i = .cinit ∨ (∃ b, i = .cupd b) ∨ (i = .dec ∧ cksumEn s.mode = true) ∨
        ∃ mode, i.wellFormedAt (.buffer mode) = true ∧ cksumEn mode = true) ∧
      ((t.sample ≠ s.sample ∨ t.status ≠ s.status ∨ t.cksum ≠ s.cksum ∨ t.ckerr ≠ s.ckerr) →
        i = .dec ∨ i = .fast ∨ ∃ mode, i.wellFormedAt (.buffer mode) = true) ∧
      (t.err ≠ s.err → ((∃ b, i = .push b) ∧ t.err = s.err ||| 0b010) ∨
        ((i = .dec ∨ (i = .fast ∧ s.mode = 0) ∨ ∃ mode, i.wellFormedAt (.buffer mode) = true) ∧
          t.err = s.err ||| 0b100))

/-- R12: no operation reads SPI3W: with the bit changed beforehand every operation does the same and leaves the bit as
it stands, SETM apart, which writes it. -/
def Obligations.Spi3wIsReadByNothing : Prop :=
  (∀ (i : Instr) (s : State) (v : Bool), (∀ m, i ≠ .setm m) →
    exec i (withSpi3w v s) = mapNext (withSpi3w v) (exec i s)) ∧
    (∀ (s : State) (v : Bool) (m : BitVec 4), exec (.setm m) (withSpi3w v s) = exec (.setm m) s) ∧
    (∀ (s : State) (v : Bool), (withSpi3w v s).flen = s.flen)

/-- R16: no operation's outcome depends on a byte of FB at or above CNT, nor changes one, PUSH apart, which writes it. -/
def Obligations.BytesAboveCntAreNeverRead : Prop :=
  ∀ (i : Instr) (s : State) (m : Memory), (∀ b, i ≠ .push b) →
    (∀ a, a < s.cnt.toNat → m.readByte a = s.fb.readByte a) →
    exec i (withFb m s) = mapNext (withFb m) (exec i s)

/-- R22: the results of DEC depend only on MODECFG, CNT and FB, and those of CUPD only on ACC and its operand. -/
def Obligations.ResultsDependOnNothingHidden : Prop :=
  (∀ s s' t : State, s'.modecfg = s.modecfg → s'.cnt = s.cnt → s'.fb = s.fb → exec .dec s = .next t →
    s.cnt.toNat = frameLength s.mode →
    ∃ t', exec .dec s' = .next t' ∧ t'.sample = t.sample ∧ t'.status = t.status ∧ t'.cksum = t.cksum ∧
      t'.ckerr = t.ckerr ∧ (cksumEn s.mode = true → t'.acc = t.acc)) ∧
    (∀ (s s' : State) (b : Byte), s'.acc = s.acc →
      ∃ t t', exec (.cupd b) s = .next t ∧ exec (.cupd b) s' = .next t' ∧ t'.acc = t.acc)

/-- R18, R19: no operation reads a result register or VEQ. With any other values in them an instruction that completes
still does, does the same to everything else, and either writes all four results, to values that do not depend on the old
ones, or keeps all four as they stand; VEQ is written so by CVFY and kept by every other instruction. -/
def Obligations.ResultRegistersAreReadByNothing : Prop :=
  ∀ (i : Instr) (s t : State) (sample : Word32) (status cksum : Byte) (ckerr veq : Bool), exec i s = .next t →
    ∃ t', exec i (withResults sample status cksum ckerr veq s) = .next t' ∧
      t' = withResults t'.sample t'.status t'.cksum t'.ckerr t'.veq t ∧
      (sameResults t t' ∨ (sameResults s t ∧ sameResults (withResults sample status cksum ckerr veq s) t')) ∧
      ((∃ e, i = .cvfy e) → t'.veq = t.veq) ∧ ((∀ e, i ≠ .cvfy e) → t'.veq = veq ∧ t.veq = s.veq)

/-- R21, R16: every output shows its register, and FB is on none. -/
def Obligations.OutputsShowTheRegisters : Prop :=
  ∀ (s : State) (m : Memory),
    (withFb m s).outputs = s.outputs ∧ s.outputs.modecfg = s.modecfg ∧ s.outputs.cnt = s.cnt ∧
      s.outputs.sample = s.sample ∧ s.outputs.status = s.status ∧ s.outputs.cksum = s.cksum ∧
      s.outputs.ckerr = s.ckerr ∧ s.outputs.veq = s.veq ∧ s.outputs.acc = s.acc ∧ s.outputs.err = s.err

/-! ### Faults -/

/-- R117, R121: which fault a word raises, at most one, in the order of checking, and that a faulting operation writes its
bit of ERR and nothing else; a word that raises none leaves ERR alone. -/
def Obligations.FaultsInOrderWriteOnlyTheirBit : Prop :=
  ∀ (s : State) (w : CmdWord) (rest : List PortInput), s.Inv →
    (raisedBits s w ≠ 0 → step (presenting s w rest) = .next (withErr { s with port := rest } (raisedBits s w))) ∧
      (raisedBits s w = 0 → ∀ t, step (presenting s w rest) = .next t → t.err = s.err)

/-- R118: a set bit of ERR changes the meaning of no operation. -/
def Obligations.ErrChangesNoOperation : Prop :=
  ∀ (i : Instr) (s : State), ∃ bit : BitVec 3, ∀ e : BitVec 3,
    exec i { s with err := e } = mapNext (fun t => { t with err := e ||| bit }) (exec i s)

/-- R123: only reset clears ERR, and it clears all three bits. -/
def Obligations.OnlyResetClearsErr : Prop :=
  ∀ (s t : State), step s = .next t →
    ((∀ p rest, s.port = p :: rest → p.rst = false) → s.err &&& t.err = s.err) ∧
      (∀ p rest, s.port = p :: rest → p.rst = true → t.err = 0)

/-! ### The invariant -/

/-- The reset state meets the invariant. -/
def Obligations.ResetStateMeetsInv : Prop := State.reset.Inv

/-- R14, R16, R35: every step keeps FB canonical, CNT legal, and every byte below CNT written. -/
def Obligations.StepKeepsInv : Prop :=
  ∀ s t : State, s.Inv → step s = .next t → t.Inv

/-- R21, R118: the block is always ready: from a state that meets the invariant no run of any length, whatever the host
presents, ever stops. -/
def Obligations.RunsNeverStop : Prop :=
  ∀ (k : Nat) (s : State), s.Inv → ∃ t, runSteps k s = .next t ∧ t.Inv

/-! ### Scripts -/

/-- R56: what each pseudo-operation expands to, in command words. -/
def Obligations.PseudoOperationsExpand : Prop :=
  (∀ bs, expandLine (.frame bs) = wordInput 0x000 0 :: bs.map (wordInput 0x100)) ∧
    (∀ bs, expandLine (.crc bs) = wordInput 0x400 0 :: bs.map (wordInput 0x500)) ∧
    (∀ e bs, expandLine (.verify e bs) = wordInput 0x400 0 :: bs.map (wordInput 0x500) ++ [wordInput 0x600 e]) ∧
    (∀ m, expandLine (.setmode m false) = [wordInput 0x700 m.code.toNat]) ∧
    (∀ m, expandLine (.setmode m true) = [wordInput 0x700 (8 + m.code.toNat)]) ∧
    expandLine .reset = [{ rst := true, cmdValid := false, cmd := 0 }] ∧
    (∀ w, expandLine (.word w) = [{ rst := false, cmdValid := true, cmd := BitVec.ofNat 11 w }])

/-- R56: the result of CRC is ACC and the result of VERIFY is VEQ, whatever the state they start in. -/
def Obligations.CrcAndVerifyLinesDeliver : Prop :=
  ∀ (s : State) (e : Nat) (bs : List Nat),
    (∃ t, runSteps (expandLine (.crc bs)).length { s with port := expandLine (.crc bs) } = .next t ∧
      t.acc = crcCompute Config.crc (bs.map (BitVec.ofNat 8))) ∧
    (∃ t, runSteps (expandLine (.verify e bs)).length { s with port := expandLine (.verify e bs) } = .next t ∧
      t.veq = crcVerify Config.crc (bs.map (BitVec.ofNat 8)) (BitVec.ofNat 8 e))

/-- R55: a script cannot spell an illegal command word: a well-formed line that is not a raw word issues only legal
ones. -/
def Obligations.ScriptsSpellNoIllegalWord : Prop :=
  ∀ (l : Line) (p : PortInput), l.wellFormed = true → (∀ w, l ≠ .word w) → p ∈ expandLine l → p.cmdValid = true →
    ∃ i, decode (.command p.cmd) = .ok i
end

