-- ==== Sys2Proof/Laws/Bytes.lean ====
section
/-! SUPPORT. Joining and splitting the bytes of a sample, and everything the command-word decoder can answer. -/

namespace Sys2Proof

theorem toNat_join2 (b0 b1 : Byte) : (b0 ++ b1).toNat = b0.toNat * 256 + b1.toNat := by
  rw [BitVec.toNat_append, ← Nat.shiftLeft_add_eq_or_of_lt b1.isLt, Nat.shiftLeft_eq]

theorem toNat_join3 (b0 b1 b2 : Byte) :
    (b0 ++ b1 ++ b2).toNat = (b0.toNat * 256 + b1.toNat) * 256 + b2.toNat := by
  rw [BitVec.toNat_append, ← Nat.shiftLeft_add_eq_or_of_lt b2.isLt, Nat.shiftLeft_eq, toNat_join2]

/-- Splitting a joined 16-bit sample gives its bytes back. -/
@[simp] theorem bytesOf16_join (b0 b1 : Byte) : bytesOf16 (b0 ++ b1) = [b0, b1] := by
  have h0 := b0.isLt
  have h1 := b1.isLt
  unfold bytesOf16
  congr 1
  · apply BitVec.eq_of_toNat_eq
    rw [BitVec.extractLsb'_toNat, toNat_join2, Nat.shiftRight_eq_div_pow]
    omega
  · congr 1
    apply BitVec.eq_of_toNat_eq
    rw [BitVec.extractLsb'_toNat, toNat_join2, Nat.shiftRight_eq_div_pow]
    omega

/-- Splitting a joined 24-bit sample gives its bytes back. -/
@[simp] theorem bytesOf24_join (b0 b1 b2 : Byte) : bytesOf24 (b0 ++ b1 ++ b2) = [b0, b1, b2] := by
  have h0 := b0.isLt
  have h1 := b1.isLt
  have h2 := b2.isLt
  unfold bytesOf24
  congr 1
  · apply BitVec.eq_of_toNat_eq
    rw [BitVec.extractLsb'_toNat, toNat_join3, Nat.shiftRight_eq_div_pow]
    omega
  · congr 1
    · apply BitVec.eq_of_toNat_eq
      rw [BitVec.extractLsb'_toNat, toNat_join3, Nat.shiftRight_eq_div_pow]
      omega
    · congr 1
      apply BitVec.eq_of_toNat_eq
      rw [BitVec.extractLsb'_toNat, toNat_join3, Nat.shiftRight_eq_div_pow]
      omega

/-- Joining the bytes of a 16-bit sample gives it back. -/
theorem join_bytesOf16 (d : BitVec 16) : (d.extractLsb' 8 8 ++ d.extractLsb' 0 8 : BitVec (8 + 8)) = d := by
  have h := d.isLt
  apply BitVec.eq_of_toNat_eq
  rw [toNat_join2]
  simp only [BitVec.extractLsb'_toNat, Nat.shiftRight_eq_div_pow]
  omega

/-- Joining the bytes of a 24-bit sample gives it back. -/
theorem join_bytesOf24 (d : BitVec 24) :
    (d.extractLsb' 16 8 ++ d.extractLsb' 8 8 ++ d.extractLsb' 0 8 : BitVec (8 + 8 + 8)) = d := by
  have h := d.isLt
  apply BitVec.eq_of_toNat_eq
  rw [toNat_join3]
  simp only [BitVec.extractLsb'_toNat, Nat.shiftRight_eq_div_pow]
  omega

/-- Everything the command-word decoder can answer, by the opcode field (R45, R46, R52). -/
theorem decodeCommand_spec (w : CmdWord) :
    decodeCommand w =
      (let arg := w.extractLsb' 0 8
       let bare := fun i : Instr => if arg = 0 then Except.ok i else Except.error (Reject.illegalCommand w)
       match (w.extractLsb' 8 3).toNat with
       | 0 => bare .fclr
       | 1 => .ok (.push arg)
       | 2 => bare .dec
       | 3 => bare .fast
       | 4 => bare .cinit
       | 5 => .ok (.cupd arg)
       | 6 => .ok (.cvfy arg)
       | _ => if w.extractLsb' 4 4 = 0 then .ok (.setm (w.extractLsb' 0 4)) else .error (.illegalCommand w)) := by
  revert w; decide

end Sys2Proof
end

