-- ==== Sys2Proof/Laws/State.lean ====
section
/-! SUPPORT. What each register write leaves in each field of State: one lemma per field per update. -/

namespace Sys2Proof.Machine

/-! ### setModecfg -/

@[simp] theorem State.setModecfg_modecfg (s : State) (m : BitVec 4) : (s.setModecfg m).modecfg = m := rfl
@[simp] theorem State.setModecfg_cnt (s : State) (m : BitVec 4) : (s.setModecfg m).cnt = s.cnt := rfl
@[simp] theorem State.setModecfg_err (s : State) (m : BitVec 4) : (s.setModecfg m).err = s.err := rfl
@[simp] theorem State.setModecfg_fb (s : State) (m : BitVec 4) : (s.setModecfg m).fb = s.fb := rfl
@[simp] theorem State.setModecfg_acc (s : State) (m : BitVec 4) : (s.setModecfg m).acc = s.acc := rfl
@[simp] theorem State.setModecfg_sample (s : State) (m : BitVec 4) : (s.setModecfg m).sample = s.sample := rfl
@[simp] theorem State.setModecfg_status (s : State) (m : BitVec 4) : (s.setModecfg m).status = s.status := rfl
@[simp] theorem State.setModecfg_cksum (s : State) (m : BitVec 4) : (s.setModecfg m).cksum = s.cksum := rfl
@[simp] theorem State.setModecfg_ckerr (s : State) (m : BitVec 4) : (s.setModecfg m).ckerr = s.ckerr := rfl
@[simp] theorem State.setModecfg_veq (s : State) (m : BitVec 4) : (s.setModecfg m).veq = s.veq := rfl
@[simp] theorem State.setModecfg_draws (s : State) (m : BitVec 4) : (s.setModecfg m).draws = s.draws := rfl
@[simp] theorem State.setModecfg_port (s : State) (m : BitVec 4) : (s.setModecfg m).port = s.port := rfl

/-! ### setCnt -/

@[simp] theorem State.setCnt_modecfg (s : State) (n : BitVec 3) : (s.setCnt n).modecfg = s.modecfg := rfl
@[simp] theorem State.setCnt_cnt (s : State) (n : BitVec 3) : (s.setCnt n).cnt = n := rfl
@[simp] theorem State.setCnt_err (s : State) (n : BitVec 3) : (s.setCnt n).err = s.err := rfl
@[simp] theorem State.setCnt_fb (s : State) (n : BitVec 3) : (s.setCnt n).fb = s.fb := rfl
@[simp] theorem State.setCnt_acc (s : State) (n : BitVec 3) : (s.setCnt n).acc = s.acc := rfl
@[simp] theorem State.setCnt_sample (s : State) (n : BitVec 3) : (s.setCnt n).sample = s.sample := rfl
@[simp] theorem State.setCnt_status (s : State) (n : BitVec 3) : (s.setCnt n).status = s.status := rfl
@[simp] theorem State.setCnt_cksum (s : State) (n : BitVec 3) : (s.setCnt n).cksum = s.cksum := rfl
@[simp] theorem State.setCnt_ckerr (s : State) (n : BitVec 3) : (s.setCnt n).ckerr = s.ckerr := rfl
@[simp] theorem State.setCnt_veq (s : State) (n : BitVec 3) : (s.setCnt n).veq = s.veq := rfl
@[simp] theorem State.setCnt_draws (s : State) (n : BitVec 3) : (s.setCnt n).draws = s.draws := rfl
@[simp] theorem State.setCnt_port (s : State) (n : BitVec 3) : (s.setCnt n).port = s.port := rfl

/-! ### setFrame -/

@[simp] theorem State.setFrame_modecfg (s : State) (m : Memory) (n : BitVec 3) : (s.setFrame m n).modecfg = s.modecfg := rfl
@[simp] theorem State.setFrame_cnt (s : State) (m : Memory) (n : BitVec 3) : (s.setFrame m n).cnt = n := rfl
@[simp] theorem State.setFrame_err (s : State) (m : Memory) (n : BitVec 3) : (s.setFrame m n).err = s.err := rfl
@[simp] theorem State.setFrame_fb (s : State) (m : Memory) (n : BitVec 3) : (s.setFrame m n).fb = m := rfl
@[simp] theorem State.setFrame_acc (s : State) (m : Memory) (n : BitVec 3) : (s.setFrame m n).acc = s.acc := rfl
@[simp] theorem State.setFrame_sample (s : State) (m : Memory) (n : BitVec 3) : (s.setFrame m n).sample = s.sample := rfl
@[simp] theorem State.setFrame_status (s : State) (m : Memory) (n : BitVec 3) : (s.setFrame m n).status = s.status := rfl
@[simp] theorem State.setFrame_cksum (s : State) (m : Memory) (n : BitVec 3) : (s.setFrame m n).cksum = s.cksum := rfl
@[simp] theorem State.setFrame_ckerr (s : State) (m : Memory) (n : BitVec 3) : (s.setFrame m n).ckerr = s.ckerr := rfl
@[simp] theorem State.setFrame_veq (s : State) (m : Memory) (n : BitVec 3) : (s.setFrame m n).veq = s.veq := rfl
@[simp] theorem State.setFrame_draws (s : State) (m : Memory) (n : BitVec 3) : (s.setFrame m n).draws = s.draws := rfl
@[simp] theorem State.setFrame_port (s : State) (m : Memory) (n : BitVec 3) : (s.setFrame m n).port = s.port := rfl

/-! ### setAcc -/

@[simp] theorem State.setAcc_modecfg (s : State) (a : Byte) : (s.setAcc a).modecfg = s.modecfg := rfl
@[simp] theorem State.setAcc_cnt (s : State) (a : Byte) : (s.setAcc a).cnt = s.cnt := rfl
@[simp] theorem State.setAcc_err (s : State) (a : Byte) : (s.setAcc a).err = s.err := rfl
@[simp] theorem State.setAcc_fb (s : State) (a : Byte) : (s.setAcc a).fb = s.fb := rfl
@[simp] theorem State.setAcc_acc (s : State) (a : Byte) : (s.setAcc a).acc = a := rfl
@[simp] theorem State.setAcc_sample (s : State) (a : Byte) : (s.setAcc a).sample = s.sample := rfl
@[simp] theorem State.setAcc_status (s : State) (a : Byte) : (s.setAcc a).status = s.status := rfl
@[simp] theorem State.setAcc_cksum (s : State) (a : Byte) : (s.setAcc a).cksum = s.cksum := rfl
@[simp] theorem State.setAcc_ckerr (s : State) (a : Byte) : (s.setAcc a).ckerr = s.ckerr := rfl
@[simp] theorem State.setAcc_veq (s : State) (a : Byte) : (s.setAcc a).veq = s.veq := rfl
@[simp] theorem State.setAcc_draws (s : State) (a : Byte) : (s.setAcc a).draws = s.draws := rfl
@[simp] theorem State.setAcc_port (s : State) (a : Byte) : (s.setAcc a).port = s.port := rfl

/-! ### setVeq -/

@[simp] theorem State.setVeq_modecfg (s : State) (v : Bool) : (s.setVeq v).modecfg = s.modecfg := rfl
@[simp] theorem State.setVeq_cnt (s : State) (v : Bool) : (s.setVeq v).cnt = s.cnt := rfl
@[simp] theorem State.setVeq_err (s : State) (v : Bool) : (s.setVeq v).err = s.err := rfl
@[simp] theorem State.setVeq_fb (s : State) (v : Bool) : (s.setVeq v).fb = s.fb := rfl
@[simp] theorem State.setVeq_acc (s : State) (v : Bool) : (s.setVeq v).acc = s.acc := rfl
@[simp] theorem State.setVeq_sample (s : State) (v : Bool) : (s.setVeq v).sample = s.sample := rfl
@[simp] theorem State.setVeq_status (s : State) (v : Bool) : (s.setVeq v).status = s.status := rfl
@[simp] theorem State.setVeq_cksum (s : State) (v : Bool) : (s.setVeq v).cksum = s.cksum := rfl
@[simp] theorem State.setVeq_ckerr (s : State) (v : Bool) : (s.setVeq v).ckerr = s.ckerr := rfl
@[simp] theorem State.setVeq_veq (s : State) (v : Bool) : (s.setVeq v).veq = v := rfl
@[simp] theorem State.setVeq_draws (s : State) (v : Bool) : (s.setVeq v).draws = s.draws := rfl
@[simp] theorem State.setVeq_port (s : State) (v : Bool) : (s.setVeq v).port = s.port := rfl

/-! ### setErr -/

@[simp] theorem State.setErr_modecfg (s : State) (e : BitVec 3) : (s.setErr e).modecfg = s.modecfg := rfl
@[simp] theorem State.setErr_cnt (s : State) (e : BitVec 3) : (s.setErr e).cnt = s.cnt := rfl
@[simp] theorem State.setErr_err (s : State) (e : BitVec 3) : (s.setErr e).err = e := rfl
@[simp] theorem State.setErr_fb (s : State) (e : BitVec 3) : (s.setErr e).fb = s.fb := rfl
@[simp] theorem State.setErr_acc (s : State) (e : BitVec 3) : (s.setErr e).acc = s.acc := rfl
@[simp] theorem State.setErr_sample (s : State) (e : BitVec 3) : (s.setErr e).sample = s.sample := rfl
@[simp] theorem State.setErr_status (s : State) (e : BitVec 3) : (s.setErr e).status = s.status := rfl
@[simp] theorem State.setErr_cksum (s : State) (e : BitVec 3) : (s.setErr e).cksum = s.cksum := rfl
@[simp] theorem State.setErr_ckerr (s : State) (e : BitVec 3) : (s.setErr e).ckerr = s.ckerr := rfl
@[simp] theorem State.setErr_veq (s : State) (e : BitVec 3) : (s.setErr e).veq = s.veq := rfl
@[simp] theorem State.setErr_draws (s : State) (e : BitVec 3) : (s.setErr e).draws = s.draws := rfl
@[simp] theorem State.setErr_port (s : State) (e : BitVec 3) : (s.setErr e).port = s.port := rfl

/-! ### setResults -/

@[simp] theorem State.setResults_modecfg (s : State) (x : Word32) (st ck : Byte) (e : Bool) : (s.setResults x st ck e).modecfg = s.modecfg := rfl
@[simp] theorem State.setResults_cnt (s : State) (x : Word32) (st ck : Byte) (e : Bool) : (s.setResults x st ck e).cnt = s.cnt := rfl
@[simp] theorem State.setResults_err (s : State) (x : Word32) (st ck : Byte) (e : Bool) : (s.setResults x st ck e).err = s.err := rfl
@[simp] theorem State.setResults_fb (s : State) (x : Word32) (st ck : Byte) (e : Bool) : (s.setResults x st ck e).fb = s.fb := rfl
@[simp] theorem State.setResults_acc (s : State) (x : Word32) (st ck : Byte) (e : Bool) : (s.setResults x st ck e).acc = s.acc := rfl
@[simp] theorem State.setResults_sample (s : State) (x : Word32) (st ck : Byte) (e : Bool) : (s.setResults x st ck e).sample = x := rfl
@[simp] theorem State.setResults_status (s : State) (x : Word32) (st ck : Byte) (e : Bool) : (s.setResults x st ck e).status = st := rfl
@[simp] theorem State.setResults_cksum (s : State) (x : Word32) (st ck : Byte) (e : Bool) : (s.setResults x st ck e).cksum = ck := rfl
@[simp] theorem State.setResults_ckerr (s : State) (x : Word32) (st ck : Byte) (e : Bool) : (s.setResults x st ck e).ckerr = e := rfl
@[simp] theorem State.setResults_veq (s : State) (x : Word32) (st ck : Byte) (e : Bool) : (s.setResults x st ck e).veq = s.veq := rfl
@[simp] theorem State.setResults_draws (s : State) (x : Word32) (st ck : Byte) (e : Bool) : (s.setResults x st ck e).draws = s.draws := rfl
@[simp] theorem State.setResults_port (s : State) (x : Word32) (st ck : Byte) (e : Bool) : (s.setResults x st ck e).port = s.port := rfl

/-! ### setDraws -/

@[simp] theorem State.setDraws_modecfg (s : State) (n : Nat) : (s.setDraws n).modecfg = s.modecfg := rfl
@[simp] theorem State.setDraws_cnt (s : State) (n : Nat) : (s.setDraws n).cnt = s.cnt := rfl
@[simp] theorem State.setDraws_err (s : State) (n : Nat) : (s.setDraws n).err = s.err := rfl
@[simp] theorem State.setDraws_fb (s : State) (n : Nat) : (s.setDraws n).fb = s.fb := rfl
@[simp] theorem State.setDraws_acc (s : State) (n : Nat) : (s.setDraws n).acc = s.acc := rfl
@[simp] theorem State.setDraws_sample (s : State) (n : Nat) : (s.setDraws n).sample = s.sample := rfl
@[simp] theorem State.setDraws_status (s : State) (n : Nat) : (s.setDraws n).status = s.status := rfl
@[simp] theorem State.setDraws_cksum (s : State) (n : Nat) : (s.setDraws n).cksum = s.cksum := rfl
@[simp] theorem State.setDraws_ckerr (s : State) (n : Nat) : (s.setDraws n).ckerr = s.ckerr := rfl
@[simp] theorem State.setDraws_veq (s : State) (n : Nat) : (s.setDraws n).veq = s.veq := rfl
@[simp] theorem State.setDraws_draws (s : State) (n : Nat) : (s.setDraws n).draws = n := rfl
@[simp] theorem State.setDraws_port (s : State) (n : Nat) : (s.setDraws n).port = s.port := rfl

/-! ### setPort -/

@[simp] theorem State.setPort_modecfg (s : State) (p : List PortInput) : (s.setPort p).modecfg = s.modecfg := rfl
@[simp] theorem State.setPort_cnt (s : State) (p : List PortInput) : (s.setPort p).cnt = s.cnt := rfl
@[simp] theorem State.setPort_err (s : State) (p : List PortInput) : (s.setPort p).err = s.err := rfl
@[simp] theorem State.setPort_fb (s : State) (p : List PortInput) : (s.setPort p).fb = s.fb := rfl
@[simp] theorem State.setPort_acc (s : State) (p : List PortInput) : (s.setPort p).acc = s.acc := rfl
@[simp] theorem State.setPort_sample (s : State) (p : List PortInput) : (s.setPort p).sample = s.sample := rfl
@[simp] theorem State.setPort_status (s : State) (p : List PortInput) : (s.setPort p).status = s.status := rfl
@[simp] theorem State.setPort_cksum (s : State) (p : List PortInput) : (s.setPort p).cksum = s.cksum := rfl
@[simp] theorem State.setPort_ckerr (s : State) (p : List PortInput) : (s.setPort p).ckerr = s.ckerr := rfl
@[simp] theorem State.setPort_veq (s : State) (p : List PortInput) : (s.setPort p).veq = s.veq := rfl
@[simp] theorem State.setPort_draws (s : State) (p : List PortInput) : (s.setPort p).draws = s.draws := rfl
@[simp] theorem State.setPort_port (s : State) (p : List PortInput) : (s.setPort p).port = p := rfl

/-! ### The reset state -/

@[simp] theorem State.reset_modecfg : State.reset.modecfg = 0 := rfl
@[simp] theorem State.reset_cnt : State.reset.cnt = 0 := rfl
@[simp] theorem State.reset_err : State.reset.err = 0 := rfl
@[simp] theorem State.reset_fb : State.reset.fb = [] := rfl
@[simp] theorem State.reset_acc : State.reset.acc = Config.crc.init := rfl
@[simp] theorem State.reset_sample : State.reset.sample = 0 := rfl
@[simp] theorem State.reset_status : State.reset.status = 0 := rfl
@[simp] theorem State.reset_cksum : State.reset.cksum = 0 := rfl
@[simp] theorem State.reset_ckerr : State.reset.ckerr = false := rfl
@[simp] theorem State.reset_veq : State.reset.veq = false := rfl
@[simp] theorem State.reset_draws : State.reset.draws = 0 := rfl
@[simp] theorem State.reset_port : State.reset.port = [] := rfl

/-! ### Reset at a clock edge -/

@[simp] theorem takeReset_modecfg (s : State) : (takeReset s).modecfg = 0 := rfl
@[simp] theorem takeReset_cnt (s : State) : (takeReset s).cnt = 0 := rfl
@[simp] theorem takeReset_err (s : State) : (takeReset s).err = 0 := rfl
@[simp] theorem takeReset_fb (s : State) : (takeReset s).fb = [] := rfl
@[simp] theorem takeReset_acc (s : State) : (takeReset s).acc = Config.crc.init := rfl
@[simp] theorem takeReset_sample (s : State) : (takeReset s).sample = 0 := rfl
@[simp] theorem takeReset_status (s : State) : (takeReset s).status = 0 := rfl
@[simp] theorem takeReset_cksum (s : State) : (takeReset s).cksum = 0 := rfl
@[simp] theorem takeReset_ckerr (s : State) : (takeReset s).ckerr = false := rfl
@[simp] theorem takeReset_veq (s : State) : (takeReset s).veq = false := rfl
@[simp] theorem takeReset_draws (s : State) : (takeReset s).draws = s.draws := rfl
@[simp] theorem takeReset_port (s : State) : (takeReset s).port = s.port := rfl

/-! ### The unspecified results of FAST -/

@[simp] theorem State.unspecifyResults_modecfg (s : State) : s.unspecifyResults.modecfg = s.modecfg := rfl
@[simp] theorem State.unspecifyResults_cnt (s : State) : s.unspecifyResults.cnt = s.cnt := rfl
@[simp] theorem State.unspecifyResults_err (s : State) : s.unspecifyResults.err = s.err := rfl
@[simp] theorem State.unspecifyResults_fb (s : State) : s.unspecifyResults.fb = s.fb := rfl
@[simp] theorem State.unspecifyResults_acc (s : State) : s.unspecifyResults.acc = s.acc := rfl
@[simp] theorem State.unspecifyResults_sample (s : State) : s.unspecifyResults.sample = Config.unspecified 32 s.draws := rfl
@[simp] theorem State.unspecifyResults_status (s : State) : s.unspecifyResults.status = Config.unspecified 8 (s.draws + 1) := rfl
@[simp] theorem State.unspecifyResults_cksum (s : State) : s.unspecifyResults.cksum = Config.unspecified 8 (s.draws + 2) := rfl
@[simp] theorem State.unspecifyResults_ckerr (s : State) : s.unspecifyResults.ckerr = (Config.unspecified 1 (s.draws + 3)).getLsbD 0 := rfl
@[simp] theorem State.unspecifyResults_veq (s : State) : s.unspecifyResults.veq = s.veq := rfl
@[simp] theorem State.unspecifyResults_draws (s : State) : s.unspecifyResults.draws = s.draws + 4 := rfl
@[simp] theorem State.unspecifyResults_port (s : State) : s.unspecifyResults.port = s.port := rfl

/-! ### A word presented on the port, a frame loaded -/

@[simp] theorem State.present_modecfg (s : State) (w : CmdWord) : (s.present w).modecfg = s.modecfg := rfl
@[simp] theorem State.present_cnt (s : State) (w : CmdWord) : (s.present w).cnt = s.cnt := rfl
@[simp] theorem State.present_err (s : State) (w : CmdWord) : (s.present w).err = s.err := rfl
@[simp] theorem State.present_fb (s : State) (w : CmdWord) : (s.present w).fb = s.fb := rfl
@[simp] theorem State.present_acc (s : State) (w : CmdWord) : (s.present w).acc = s.acc := rfl
@[simp] theorem State.present_sample (s : State) (w : CmdWord) : (s.present w).sample = s.sample := rfl
@[simp] theorem State.present_status (s : State) (w : CmdWord) : (s.present w).status = s.status := rfl
@[simp] theorem State.present_cksum (s : State) (w : CmdWord) : (s.present w).cksum = s.cksum := rfl
@[simp] theorem State.present_ckerr (s : State) (w : CmdWord) : (s.present w).ckerr = s.ckerr := rfl
@[simp] theorem State.present_veq (s : State) (w : CmdWord) : (s.present w).veq = s.veq := rfl
@[simp] theorem State.present_draws (s : State) (w : CmdWord) : (s.present w).draws = s.draws := rfl
@[simp] theorem State.present_port (s : State) (w : CmdWord) : (s.present w).port = PortInput.command w :: s.port := rfl
@[simp] theorem State.loadFrame_modecfg (s : State) (mode : ModeCode) (bs : List Byte) : (s.loadFrame mode bs).modecfg = s.modecfg.extractLsb' 3 1 ++ mode := rfl
@[simp] theorem State.loadFrame_cnt (s : State) (mode : ModeCode) (bs : List Byte) : (s.loadFrame mode bs).cnt = BitVec.ofNat 3 bs.length := rfl
@[simp] theorem State.loadFrame_err (s : State) (mode : ModeCode) (bs : List Byte) : (s.loadFrame mode bs).err = s.err := rfl
@[simp] theorem State.loadFrame_fb (s : State) (mode : ModeCode) (bs : List Byte) : (s.loadFrame mode bs).fb = Memory.ofBytes bs := rfl
@[simp] theorem State.loadFrame_acc (s : State) (mode : ModeCode) (bs : List Byte) : (s.loadFrame mode bs).acc = s.acc := rfl
@[simp] theorem State.loadFrame_sample (s : State) (mode : ModeCode) (bs : List Byte) : (s.loadFrame mode bs).sample = s.sample := rfl
@[simp] theorem State.loadFrame_status (s : State) (mode : ModeCode) (bs : List Byte) : (s.loadFrame mode bs).status = s.status := rfl
@[simp] theorem State.loadFrame_cksum (s : State) (mode : ModeCode) (bs : List Byte) : (s.loadFrame mode bs).cksum = s.cksum := rfl
@[simp] theorem State.loadFrame_ckerr (s : State) (mode : ModeCode) (bs : List Byte) : (s.loadFrame mode bs).ckerr = s.ckerr := rfl
@[simp] theorem State.loadFrame_veq (s : State) (mode : ModeCode) (bs : List Byte) : (s.loadFrame mode bs).veq = s.veq := rfl
@[simp] theorem State.loadFrame_draws (s : State) (mode : ModeCode) (bs : List Byte) : (s.loadFrame mode bs).draws = s.draws := rfl
@[simp] theorem State.loadFrame_port (s : State) (mode : ModeCode) (bs : List Byte) : (s.loadFrame mode bs).port = s.port := rfl

end Sys2Proof.Machine
end

