-- ==== Sys2Proof/Laws/Deliver.lean ====
section
/-! SUPPORT. What delivering a decode's results leaves in each field (spec/42_frame_decode.md R100), and what the mode and
the outputs read. -/

namespace Sys2Proof.Machine

@[simp] theorem State.deliver_modecfg (s : State) (c : ChannelData) : (s.deliver c).modecfg = s.modecfg := rfl
@[simp] theorem State.deliver_cnt (s : State) (c : ChannelData) : (s.deliver c).cnt = s.cnt := rfl
@[simp] theorem State.deliver_err (s : State) (c : ChannelData) : (s.deliver c).err = s.err := rfl
@[simp] theorem State.deliver_fb (s : State) (c : ChannelData) : (s.deliver c).fb = s.fb := rfl
@[simp] theorem State.deliver_acc (s : State) (c : ChannelData) : (s.deliver c).acc = c.recomputed.getD s.acc := rfl
@[simp] theorem State.deliver_sample (s : State) (c : ChannelData) : (s.deliver c).sample = c.sample := rfl
@[simp] theorem State.deliver_status (s : State) (c : ChannelData) : (s.deliver c).status = c.status := rfl
@[simp] theorem State.deliver_cksum (s : State) (c : ChannelData) : (s.deliver c).cksum = c.cksum := rfl
@[simp] theorem State.deliver_ckerr (s : State) (c : ChannelData) : (s.deliver c).ckerr = c.ckerr := rfl
@[simp] theorem State.deliver_veq (s : State) (c : ChannelData) : (s.deliver c).veq = s.veq := rfl
@[simp] theorem State.deliver_draws (s : State) (c : ChannelData) : (s.deliver c).draws = s.draws := rfl
@[simp] theorem State.deliver_port (s : State) (c : ChannelData) : (s.deliver c).port = s.port := rfl

@[simp] theorem State.setModecfg_mode (s : State) (m : BitVec 4) : (s.setModecfg m).mode = m.extractLsb' 0 3 := rfl
@[simp] theorem State.setCnt_mode (s : State) (n : BitVec 3) : (s.setCnt n).mode = s.mode := rfl
@[simp] theorem State.setFrame_mode (s : State) (m : Memory) (n : BitVec 3) : (s.setFrame m n).mode = s.mode := rfl
@[simp] theorem State.setAcc_mode (s : State) (a : Byte) : (s.setAcc a).mode = s.mode := rfl
@[simp] theorem State.setVeq_mode (s : State) (v : Bool) : (s.setVeq v).mode = s.mode := rfl
@[simp] theorem State.setErr_mode (s : State) (e : BitVec 3) : (s.setErr e).mode = s.mode := rfl
@[simp] theorem State.setResults_mode (s : State) (x : Word32) (st ck : Byte) (e : Bool) : (s.setResults x st ck e).mode = s.mode := rfl
@[simp] theorem State.setDraws_mode (s : State) (n : Nat) : (s.setDraws n).mode = s.mode := rfl
@[simp] theorem State.setPort_mode (s : State) (p : List PortInput) : (s.setPort p).mode = s.mode := rfl
@[simp] theorem State.deliver_mode (s : State) (c : ChannelData) : (s.deliver c).mode = s.mode := rfl
@[simp] theorem State.unspecifyResults_mode (s : State) : s.unspecifyResults.mode = s.mode := rfl
@[simp] theorem State.present_mode (s : State) (w : CmdWord) : (s.present w).mode = s.mode := rfl
@[simp] theorem State.reset_mode : State.reset.mode = 0 := rfl

end Sys2Proof.Machine
end

