-- ==== Sys2Proof/Laws/Memory.lean ====
section
/-! SUPPORT. The laws of the frame buffer: a read after a write, the canonical form, and what a read of several bytes
answers. -/

namespace Sys2Proof.Machine

/-! ### Lookup and insert -/

theorem Memory.lookup_insert (m : Memory) (a a' : Nat) (v : Byte) :
    (m.insert a v).lookup a' = if a' = a then some v else m.lookup a' := by
  induction m with
  | nil => simp [Memory.insert, Memory.lookup]
  | cons x rest ih =>
    obtain ⟨k, b⟩ := x
    unfold Memory.insert
    split
    · simp [Memory.lookup]
    · split
      · next h => subst h; by_cases h' : a' = a <;> simp [Memory.lookup, h']
      · next h =>
        simp only [Memory.lookup, ih]
        by_cases h1 : a' = k
        · have : a' ≠ a := fun h2 => h (h2 ▸ h1)
          simp [h1, show k ≠ a from fun h2 => h h2.symm]
        · simp [h1]

theorem Memory.keys_insert (m : Memory) (a : Nat) (v : Byte) (c : Host.Cell) (h : c ∈ m.insert a v) :
    c.1 = a ∨ c ∈ m := by
  induction m with
  | nil => simp [Memory.insert] at h; simp [h]
  | cons x rest ih =>
    obtain ⟨k, b⟩ := x
    unfold Memory.insert at h
    split at h
    · rcases List.mem_cons.1 h with rfl | h
      · exact .inl rfl
      · exact .inr h
    · split at h
      · rcases List.mem_cons.1 h with rfl | h
        · exact .inl rfl
        · exact .inr (List.mem_cons_of_mem _ h)
      · rcases List.mem_cons.1 h with rfl | h
        · exact .inr (by simp)
        · rcases ih h with h | h
          · exact .inl h
          · exact .inr (List.mem_cons_of_mem _ h)

theorem Memory.pairwise_insert (m : Memory) (a : Nat) (v : Byte)
    (h : m.Pairwise (fun x y => x.1 < y.1)) : (m.insert a v).Pairwise (fun x y => x.1 < y.1) := by
  induction m with
  | nil => simp [Memory.insert]
  | cons x rest ih =>
    obtain ⟨k, b⟩ := x
    obtain ⟨hk, hrest⟩ := List.pairwise_cons.1 h
    unfold Memory.insert
    split
    · next hlt =>
      refine List.pairwise_cons.2 ⟨fun c hc => ?_, h⟩
      rcases List.mem_cons.1 hc with rfl | hc
      · exact hlt
      · exact Nat.lt_trans hlt (hk c hc)
    · split
      · next heq => subst heq; exact List.pairwise_cons.2 ⟨hk, hrest⟩
      · next hnlt hne =>
        refine List.pairwise_cons.2 ⟨fun c hc => ?_, ih hrest⟩
        rcases Memory.keys_insert rest a v c hc with h' | h'
        · show k < c.1
          omega
        · exact hk c h'

/-- Inserting at an address that exists keeps the canonical form. -/
theorem Memory.insert_wf (m : Memory) (a : Nat) (v : Byte) (h : m.wf) (ha : a < fbSize) : (m.insert a v).wf := by
  refine ⟨Memory.pairwise_insert m a v h.1, fun c hc => ?_⟩
  rcases Memory.keys_insert m a v c hc with h' | h'
  · omega
  · exact h.2 c h'

/-! ### Reads and writes of one byte -/

/-- Everything `memWrite` can answer. -/
theorem Memory.memWrite_spec (m : Memory) (a : Nat) (v : Byte) :
    (a < fbSize ∧ m.memWrite a v = .ok (m.insert a v)) ∨
      (¬ a < fbSize ∧ m.memWrite a v = .error (.noSuchAddress a)) := by
  unfold Memory.memWrite
  by_cases h : a < fbSize <;> simp [h]

/-- Every memory operation keeps the canonical form. -/
theorem Memory.memWrite_wf (m m' : Memory) (a : Nat) (v : Byte) (h : m.wf) (hw : m.memWrite a v = .ok m') : m'.wf := by
  rcases Memory.memWrite_spec m a v with ⟨ha, he⟩ | ⟨_, he⟩ <;> rw [he] at hw
  · cases hw; exact Memory.insert_wf m a v h ha
  · cases hw

/-- A read after a write: the byte written at its own address, the old byte elsewhere. -/
theorem Memory.readByte_insert (m : Memory) (a a' : Nat) (v : Byte) :
    (m.insert a v).readByte a' = if a' = a ∧ a < fbSize then .ok v else m.readByte a' := by
  unfold Memory.readByte
  rw [Memory.lookup_insert]
  by_cases h : a' = a
  · subst h
    by_cases h2 : a' < fbSize <;> simp [h2]
  · simp [h]

theorem Memory.readByte_insert_same (m : Memory) (a : Nat) (v : Byte) (ha : a < fbSize) :
    (m.insert a v).readByte a = .ok v := by
  simp [Memory.readByte_insert, ha]

theorem Memory.readByte_insert_other (m : Memory) (a a' : Nat) (v : Byte) (h : a' ≠ a) :
    (m.insert a v).readByte a' = m.readByte a' := by
  simp [Memory.readByte_insert, h]

theorem Memory.readByte_ok_lt {m : Memory} {a : Nat} {b : Byte} (h : m.readByte a = .ok b) : a < fbSize := by
  unfold Memory.readByte at h
  by_cases h2 : a < fbSize
  · exact h2
  · simp [h2] at h

/-! ### Reads of several bytes -/

@[simp] theorem Memory.readBytes_zero (m : Memory) (a : Nat) : m.readBytes a 0 = .ok [] := rfl

/-- Reading n+1 bytes succeeds exactly when the first byte and the n after it can be read. -/
theorem Memory.readBytes_succ_ok (m : Memory) (a n : Nat) (bs : List Byte) :
    m.readBytes a (n + 1) = .ok bs ↔
      ∃ b rest, m.readByte a = .ok b ∧ m.readBytes (a + 1) n = .ok rest ∧ bs = b :: rest := by
  rw [Memory.readBytes]
  cases m.readByte a with
  | error f => simp
  | ok b =>
    cases m.readBytes (a + 1) n with
    | error f => simp
    | ok rest => simp [eq_comm]

theorem Memory.readBytes_length {m : Memory} {a n : Nat} {bs : List Byte} (h : m.readBytes a n = .ok bs) :
    bs.length = n := by
  induction n generalizing a bs with
  | zero => cases h; rfl
  | succ n ih =>
    obtain ⟨b, rest, _, h2, rfl⟩ := (Memory.readBytes_succ_ok m a n bs).1 h
    simp [ih h2]

/-- A read of several bytes succeeds when each byte can be read. -/
theorem Memory.readBytes_total {m : Memory} {a n : Nat}
    (h : ∀ k, a ≤ k → k < a + n → ∃ b, m.readByte k = .ok b) : ∃ bs, m.readBytes a n = .ok bs := by
  induction n generalizing a with
  | zero => exact ⟨[], rfl⟩
  | succ n ih =>
    obtain ⟨b, hb⟩ := h a (Nat.le_refl a) (by omega)
    obtain ⟨rest, hr⟩ := ih (a := a + 1) (fun k h1 h2 => h k (by omega) (by omega))
    exact ⟨b :: rest, (Memory.readBytes_succ_ok m a n _).2 ⟨b, rest, hb, hr, rfl⟩⟩

/-- The i-th byte read is the byte at that address. -/
theorem Memory.readBytes_get {m : Memory} {a n i : Nat} {bs : List Byte} (h : m.readBytes a n = .ok bs)
    (hi : i < n) : ∃ b, bs[i]? = some b ∧ m.readByte (a + i) = .ok b := by
  induction n generalizing a bs i with
  | zero => omega
  | succ n ih =>
    obtain ⟨b, rest, h1, h2, rfl⟩ := (Memory.readBytes_succ_ok m a n bs).1 h
    cases i with
    | zero => exact ⟨b, by simp, by simpa using h1⟩
    | succ i =>
      obtain ⟨b', hb, hr⟩ := ih h2 (by omega : i < n)
      exact ⟨b', by simpa using hb, by rw [← hr]; congr 1; omega⟩

/-- Memories that read the same below a bound give the same bytes below it. -/
theorem Memory.readBytes_congr {m m' : Memory} {a n : Nat}
    (h : ∀ k, a ≤ k → k < a + n → m.readByte k = m'.readByte k) : m.readBytes a n = m'.readBytes a n := by
  induction n generalizing a with
  | zero => rfl
  | succ n ih =>
    rw [Memory.readBytes, Memory.readBytes, h a (Nat.le_refl a) (by omega),
      ih (a := a + 1) (fun k h1 h2 => h k (by omega) (by omega))]

/-- Everything `memRead` can answer. -/
theorem Memory.memRead_spec (m : Memory) (a n : Nat) :
    (∃ bs, m.readBytes a n = .ok bs ∧ m.memRead a n = .ok (BitVec.ofNat (8 * n) (joinBytes bs))) ∨
      (∃ f, m.readBytes a n = .error f ∧ m.memRead a n = .error f) := by
  unfold Memory.memRead
  cases m.readBytes a n with
  | error f => exact .inr ⟨f, rfl, rfl⟩
  | ok bs => exact .inl ⟨bs, rfl, rfl⟩

theorem joinBytes_pair (b0 b1 : Byte) : BitVec.ofNat 16 (joinBytes [b0, b1]) = b0 ++ b1 := by
  apply BitVec.eq_of_toNat_eq
  simp only [joinBytes, List.foldl, BitVec.toNat_ofNat, BitVec.toNat_append]
  rw [← Nat.shiftLeft_add_eq_or_of_lt b1.isLt, Nat.shiftLeft_eq]
  have h0 := b0.isLt
  have h1 := b1.isLt
  omega

theorem joinBytes_triple (b0 b1 b2 : Byte) : BitVec.ofNat 24 (joinBytes [b0, b1, b2]) = b0 ++ b1 ++ b2 := by
  apply BitVec.eq_of_toNat_eq
  simp only [joinBytes, List.foldl, BitVec.toNat_ofNat, BitVec.toNat_append]
  rw [← Nat.shiftLeft_add_eq_or_of_lt b1.isLt, ← Nat.shiftLeft_add_eq_or_of_lt b2.isLt, Nat.shiftLeft_eq,
    Nat.shiftLeft_eq]
  have h0 := b0.isLt
  have h1 := b1.isLt
  have h2 := b2.isLt
  omega

/-! ### The canonical form of whole buffers -/

/-- The buffer of the reset state is canonical. -/
theorem Memory.reset_wf : Memory.wf State.reset.fb := ⟨List.Pairwise.nil, fun _ h => nomatch h⟩

/-- A buffer loaded with at most five bytes is canonical. -/
theorem Memory.ofBytes_wf (bs : List Byte) (h : bs.length ≤ fbSize) : (Memory.ofBytes bs).wf := by
  match bs with
  | [] => exact Memory.reset_wf
  | [_] => simp [Memory.ofBytes, Memory.wf, fbSize]
  | [_, _] => simp [Memory.ofBytes, Memory.wf, fbSize]
  | [_, _, _] => simp [Memory.ofBytes, Memory.wf, fbSize]
  | [_, _, _, _] => simp [Memory.ofBytes, Memory.wf, fbSize]
  | [_, _, _, _, _] => simp [Memory.ofBytes, Memory.wf, fbSize]
  | _ :: _ :: _ :: _ :: _ :: _ :: _ => simp only [List.length_cons, fbSize] at h; omega

end Sys2Proof.Machine
end

