-- ==== Sys2Proof/Laws/Operations.lean ====
section
/-! SUPPORT. One lemma per shared operation that says once everything it can do; proofs about the instructions cite these
instead of unfolding. -/

namespace Sys2Proof.Machine

/-! ### Mode and frame length -/

/-- `frame_length` is 2 to 5, so it fits the buffer and the port `flen`. -/
theorem frameLength_bounds (mode : ModeCode) : 2 ≤ frameLength mode ∧ frameLength mode ≤ fbSize := by
  unfold frameLength sampleLength fbSize
  cases res16 mode <;> cases statusEn mode <;> cases cksumEn mode <;> simp

theorem sampleLength_le (mode : ModeCode) : sampleLength mode ≤ frameLength mode := by
  unfold frameLength; omega

/-! ### Faults, reset, the port -/

/-- Everything fault entry does (R117). -/
theorem raise_eq (k : FaultBit) (s : State) : raise k s = .next (s.setErr (s.err ||| k.bit)) := rfl

/-- Everything `nextInput` can do. -/
theorem nextInput_spec (s : State) :
    (s.port = [] ∧ nextInput s = (PortInput.idle, s)) ∨
      (∃ p rest, s.port = p :: rest ∧ nextInput s = (p, s.setPort rest)) := by
  unfold nextInput
  cases s.port with
  | nil => exact .inl ⟨rfl, rfl⟩
  | cons p rest => exact .inr ⟨p, rest, rfl, rfl⟩

/-- A frame that is completed either delivers its data or raises FrameLength (R101 to R108). -/
theorem completeFrame_spec (len : Nat) (c : ChannelData) (s : State) :
    (s.cnt.toNat = len ∧ completeFrame len c s = .next (s.deliver c)) ∨
      (s.cnt.toNat ≠ len ∧ completeFrame len c s = .next (s.setErr (s.err ||| FaultBit.frameLength.bit))) := by
  unfold completeFrame
  by_cases h : s.cnt.toNat = len <;> simp [h, raise_eq]

/-! ### The byte extractor and the decode function -/

theorem extractSample_total {mode : ModeCode} {f : List Byte} (h : sampleLength mode ≤ f.length) :
    ∃ v, extractSample mode f = some v := by
  unfold extractSample
  unfold sampleLength at h
  match hr : res16 mode, f with
  | true, b0 :: b1 :: _ => exact ⟨sext32 (b0 ++ b1), by simp⟩
  | true, [_] => simp [hr] at h
  | true, [] => simp [hr] at h
  | false, b0 :: b1 :: b2 :: _ => exact ⟨sext32 (b0 ++ b1 ++ b2), by simp⟩
  | false, [_, _] => simp [hr] at h
  | false, [_] => simp [hr] at h
  | false, [] => simp [hr] at h

theorem extractStatus_total {mode : ModeCode} {f : List Byte} (h : f.length = frameLength mode) :
    ∃ v, extractStatus mode f = some v := by
  unfold extractStatus
  by_cases hs : statusEn mode
  · have : sampleLength mode < f.length := by rw [h]; unfold frameLength; simp [hs]; omega
    simp [hs, this]
  · simp [hs]

theorem extractChecksum_total {mode : ModeCode} {f : List Byte} (h : f.length = frameLength mode) :
    ∃ v, extractChecksum mode f = some v := by
  unfold extractChecksum
  by_cases hs : cksumEn mode
  · have : frameLength mode - 1 < f.length := by have := (frameLength_bounds mode).1; omega
    simp [hs, this]
  · simp [hs]

/-- The decode function answers exactly on the sequences of `frame_length(mode)` bytes (R90, R96). -/
theorem frameDecode_isSome (p : CrcParams) (mode : ModeCode) (f : List Byte) :
    (∃ c, frameDecode p mode f = some c) ↔ f.length = frameLength mode := by
  unfold frameDecode
  by_cases h : f.length = frameLength mode
  · obtain ⟨x, hx⟩ := extractSample_total (mode := mode) (f := f) (h ▸ sampleLength_le mode)
    obtain ⟨y, hy⟩ := extractStatus_total h
    obtain ⟨z, hz⟩ := extractChecksum_total h
    simp [h, hx, hy, hz]
  · simp [h]

/-! ### The two decode operations -/

/-- Everything DEC can do: complete, raise FrameLength, or stop on a byte nothing has written (R100). -/
theorem execDec_spec (s : State) :
    (s.cnt.toNat = frameLength s.mode ∧ ∃ bytes c, s.fb.readBytes 0 (frameLength s.mode) = .ok bytes ∧
        frameDecode Config.crc s.mode bytes = some c ∧ execDec s = .next (s.deliver c)) ∨
      (s.cnt.toNat ≠ frameLength s.mode ∧ execDec s = .next (s.setErr (s.err ||| FaultBit.frameLength.bit))) ∨
      (s.cnt.toNat = frameLength s.mode ∧ ∃ f, s.fb.readBytes 0 (frameLength s.mode) = .error f ∧
        execDec s = .fault f) := by
  unfold execDec
  by_cases h : s.cnt.toNat = frameLength s.mode
  · cases hr : s.fb.readBytes 0 (frameLength s.mode) with
    | error f => exact .inr (.inr ⟨h, f, rfl, by simp [h]⟩)
    | ok bytes =>
      obtain ⟨c, hc⟩ := (frameDecode_isSome Config.crc s.mode bytes).2 (Memory.readBytes_length hr)
      exact .inl ⟨h, bytes, c, rfl, hc, by simp [h, hc]⟩
  · exact .inr (.inl ⟨h, by simp [h, raise_eq]⟩)

/-- Everything FAST can do (R110, R112). -/
theorem execFast_spec (s : State) :
    (s.mode ≠ 0 ∧ execFast s = .next s.unspecifyResults) ∨
      (s.mode = 0 ∧ s.cnt.toNat = 3 ∧ ∃ raw24, s.fb.memRead 0 3 = .ok raw24 ∧
        execFast s = .next (s.setResults (sext32 raw24) 0 0 false)) ∨
      (s.mode = 0 ∧ s.cnt.toNat ≠ 3 ∧ execFast s = .next (s.setErr (s.err ||| FaultBit.frameLength.bit))) ∨
      (s.mode = 0 ∧ s.cnt.toNat = 3 ∧ ∃ f, s.fb.memRead 0 3 = .error f ∧ execFast s = .fault f) := by
  unfold execFast
  by_cases hm : s.mode = 0
  · by_cases hc : s.cnt.toNat = 3
    · cases hr : s.fb.memRead 0 3 with
      | error f => exact .inr (.inr (.inr ⟨hm, hc, f, rfl, by simp [hm, hc]⟩))
      | ok v => exact .inr (.inl ⟨hm, hc, v, rfl, by simp [hm, hc]⟩)
    · exact .inr (.inr (.inl ⟨hm, hc, by simp [hm, hc, raise_eq]⟩))
  · exact .inl ⟨hm, if_pos hm⟩

/-- Everything PUSH can do (R68, R35): it never stops. -/
theorem execPush_spec (b : Byte) (s : State) :
    (s.cnt.toNat < fbSize ∧ execPush b s = .next (s.setFrame (s.fb.insert s.cnt.toNat b) (s.cnt + 1))) ∨
      (¬ s.cnt.toNat < fbSize ∧ execPush b s = .next (s.setErr (s.err ||| FaultBit.frameOverflow.bit))) := by
  unfold execPush
  rcases Memory.memWrite_spec s.fb s.cnt.toNat b with ⟨h, hw⟩ | ⟨h, _⟩
  · exact .inl ⟨h, by simp [h, hw]⟩
  · exact .inr ⟨h, by simp [h, raise_eq]⟩

/-! ### The CRC parameters -/

/-- The constraint of R5 and R83 holds of the instance's polynomial, whatever it is. -/
theorem Config_crc_poly_ne_zero : Config.crc.poly ≠ 0 := by
  intro h
  have h1 := Config.crcPolyIndex.isLt
  have h2 := congrArg BitVec.toNat h
  simp only [Config.crc, Config.crcPoly, BitVec.toNat_ofNat] at h2
  have h3 : BitVec.toNat (0 : BitVec 8) = 0 := rfl
  rw [h3] at h2
  omega

end Sys2Proof.Machine
end

