-- ==== Sys2Proof/Laws/PerInstr.lean ====
section
/-! SUPPORT. Per-instruction families of statements about the instructions as syntax. -/

namespace Sys2Proof.Laws

/-- The encoding of an instruction stands where the instruction is well formed, and fits its row of the opcode table: a
command word agrees with a row of the opcode map under the row's mask (R46); a frame has the length of its mode (R65). -/
def RowFit.Statement (i : Instr) : Prop :=
  match encode i with
  | .command w => i.wellFormedAt .port = true ∧ ∃ r ∈ cmdRows, w &&& r.mask = r.pat
  | .frame mode bytes => i.wellFormedAt (.buffer mode) = true ∧ bytes.length = Machine.frameLength mode

/-- An opcode row whose mask looks at the opcode only fits every operand byte. -/
theorem RowFit.opcode_only (op : BitVec 3) (b : Byte) :
    commandWord op b &&& 0x700#11 = commandWord op 0 := by
  revert op b; decide

/-- The row of SETM fits every 4-bit operand. -/
theorem RowFit.opcode_and_high_nibble (m : BitVec 4) :
    commandWord 0b111 (0#4 ++ m) &&& 0x7F0#11 = 0x700#11 := by
  revert m; decide

theorem RowFit.fclr : RowFit.Statement .fclr :=
  ⟨rfl, cmdRows[0], by simp [cmdRows], rfl⟩

theorem RowFit.push (b : Byte) : RowFit.Statement (.push b) :=
  ⟨rfl, cmdRows[1], by simp [cmdRows], RowFit.opcode_only 0b001 b⟩

theorem RowFit.dec : RowFit.Statement .dec :=
  ⟨rfl, cmdRows[2], by simp [cmdRows], rfl⟩

theorem RowFit.fast : RowFit.Statement .fast :=
  ⟨rfl, cmdRows[3], by simp [cmdRows], rfl⟩

theorem RowFit.cinit : RowFit.Statement .cinit :=
  ⟨rfl, cmdRows[4], by simp [cmdRows], rfl⟩

theorem RowFit.cupd (b : Byte) : RowFit.Statement (.cupd b) :=
  ⟨rfl, cmdRows[5], by simp [cmdRows], RowFit.opcode_only 0b101 b⟩

theorem RowFit.cvfy (e : Byte) : RowFit.Statement (.cvfy e) :=
  ⟨rfl, cmdRows[6], by simp [cmdRows], RowFit.opcode_only 0b110 e⟩

theorem RowFit.setm (m : BitVec 4) : RowFit.Statement (.setm m) :=
  ⟨rfl, cmdRows[7], by simp [cmdRows], RowFit.opcode_and_high_nibble m⟩

theorem RowFit.f24 (d : BitVec 24) : RowFit.Statement (.f24 d) := ⟨rfl, rfl⟩

theorem RowFit.f24s (d : BitVec 24) (s : Byte) : RowFit.Statement (.f24s d s) := ⟨rfl, rfl⟩

theorem RowFit.f24c (d : BitVec 24) (c : Byte) : RowFit.Statement (.f24c d c) := ⟨rfl, rfl⟩

theorem RowFit.f24sc (d : BitVec 24) (s c : Byte) : RowFit.Statement (.f24sc d s c) := ⟨rfl, rfl⟩

theorem RowFit.f16 (d : BitVec 16) : RowFit.Statement (.f16 d) := ⟨rfl, rfl⟩

theorem RowFit.f16s (d : BitVec 16) (s : Byte) : RowFit.Statement (.f16s d s) := ⟨rfl, rfl⟩

theorem RowFit.f16c (d : BitVec 16) (c : Byte) : RowFit.Statement (.f16c d c) := ⟨rfl, rfl⟩

theorem RowFit.f16sc (d : BitVec 16) (s c : Byte) : RowFit.Statement (.f16sc d s c) := ⟨rfl, rfl⟩

end Sys2Proof.Laws
end

