-- ==== Sys2Proof/Tests/Slice0.lean ====
section
/-! SUPPORT. The model's own tests. Expected values are those of spec/95_test_vectors.md and of the examples in the
rules; the words are written out from the encodings of spec/30_encoding.md. The last part holds, for every obligation
with hypotheses, a named witness that meets them. -/

namespace Sys2Proof.Tests

open Sys2Proof.Machine Sys2Proof.Claims

/-! ### Well-formedness: an ill-formed term for each check, refused -/

theorem test_wf_frame_is_no_command_word : (Instr.f24 0x123456).wellFormedAt .port = false := by decide

theorem test_wf_command_is_no_frame : Instr.dec.wellFormedAt (.buffer 0) = false := by decide

theorem test_wf_mode_selects_the_format :
    (Instr.f24s 0x800000 0xA5).wellFormedAt (.buffer 1) = true ∧
      (Instr.f24s 0x800000 0xA5).wellFormedAt (.buffer 2) = false := by decide

theorem test_wf_script_bytes :
    (Line.push 255).wellFormed = true ∧ (Line.push 256).wellFormed = false ∧ (Line.cupd 256).wellFormed = false ∧
      (Line.cvfy 256).wellFormed = false := by decide

theorem test_wf_script_nibble : (Line.setm 15).wellFormed = true ∧ (Line.setm 16).wellFormed = false := by decide

theorem test_wf_script_frame :
    (Line.frame [1, 2, 3, 4, 255]).wellFormed = true ∧ (Line.frame []).wellFormed = false ∧
      (Line.frame [1, 2, 3, 4, 5, 6]).wellFormed = false ∧ (Line.frame [256]).wellFormed = false := by decide

theorem test_wf_script_sequences :
    (Line.crc []).wellFormed = true ∧ (Line.crc [0, 256]).wellFormed = false ∧
      (Line.verify 256 []).wellFormed = false ∧ (Line.verify 0 [256]).wellFormed = false := by decide

theorem test_wf_script_raw_word : (Line.word 0x7FF).wellFormed = true ∧ (Line.word 0x800).wellFormed = false := by
  decide

/-! ### Decoding: words written out bit by bit (95_test_vectors.md 2.8; 30_encoding.md R46, R48) -/

theorem test_decode_fclr : decode (.command 0b000_0000_0000) = .ok .fclr := by decide
theorem test_decode_push : decode (.command 0b001_0101_0110) = .ok (.push 0x56) := by decide
theorem test_decode_dec : decode (.command 0b010_0000_0000) = .ok .dec := by decide
theorem test_decode_fast : decode (.command 0b011_0000_0000) = .ok .fast := by decide
theorem test_decode_cinit : decode (.command 0b100_0000_0000) = .ok .cinit := by decide
theorem test_decode_cupd : decode (.command 0b101_1010_0101) = .ok (.cupd 0xA5) := by decide
theorem test_decode_cvfy : decode (.command 0b110_0101_0111) = .ok (.cvfy 0x57) := by decide
theorem test_decode_setm : decode (.command 0b111_0000_0101) = .ok (.setm 0b0101) := by decide

theorem test_decode_rejects :
    decode (.command 0b000_0000_0001) = .error (.illegalCommand 0x001) ∧
      decode (.command 0b010_1000_0000) = .error (.illegalCommand 0x280) ∧
      decode (.command 0b011_0001_0000) = .error (.illegalCommand 0x310) ∧
      decode (.command 0b100_1111_1111) = .error (.illegalCommand 0x4FF) ∧
      decode (.command 0b111_0001_0000) = .error (.illegalCommand 0x710) ∧
      decode (.frame 0 [0x12, 0x34]) = .error (.frameLength 0 2) := by decide

theorem test_decode_f24 :
    decode (.frame 0 [0b0001_0010, 0b0011_0100, 0b0101_0110]) = .ok (.f24 0x123456) := by decide
theorem test_decode_f24s :
    decode (.frame 1 [0b1000_0000, 0b0000_0000, 0b0000_0000, 0b1010_0101]) = .ok (.f24s 0x800000 0xA5) := by decide
theorem test_decode_f24c :
    decode (.frame 2 [0b0001_0010, 0b0011_0100, 0b0101_0110, 0b0101_0111]) = .ok (.f24c 0x123456 0x57) := by decide
theorem test_decode_f24sc :
    decode (.frame 3 [0b0001_0010, 0b0011_0100, 0b0101_0110, 0b1010_0101, 0b1101_0000]) =
      .ok (.f24sc 0x123456 0xA5 0xD0) := by decide
theorem test_decode_f16 : decode (.frame 4 [0b0111_1111, 0b1111_1111]) = .ok (.f16 0x7FFF) := by decide
theorem test_decode_f16s :
    decode (.frame 5 [0b1000_0000, 0b0000_0000, 0b0101_1010]) = .ok (.f16s 0x8000 0x5A) := by decide
theorem test_decode_f16c :
    decode (.frame 6 [0b0001_0010, 0b0011_0100, 0b0010_0110]) = .ok (.f16c 0x1234 0x26) := by decide
theorem test_decode_f16sc :
    decode (.frame 7 [0b1000_0000, 0b0000_0000, 0b0101_1010, 0b1010_0001]) = .ok (.f16sc 0x8000 0x5A 0xA1) := by decide

/-- The host's numbering: command words in 16 bits, the frames of the two unique lengths, and one shared length. -/
theorem test_table_words :
    decodeTableWord 16 0x1FF = some (.push 0xFF) ∧ decodeTableWord 16 0x70F = some (.setm 15) ∧
      decodeTableWord 16 0x001 = none ∧ decodeTableWord 16 0x7FFF = some (.f16 0x7FFF) ∧
      decodeTableWord 24 0x123456 = some (.f24 0x123456) ∧
      decodeTableWord 40 0x123456A5D0 = some (.f24sc 0x123456 0xA5 0xD0) := by decide

/-! ### The checksum functions (95_test_vectors.md 2.4, 2.5) -/

def pA : CrcParams := { poly := 0x07, init := 0xFF, msbFirst := true }
def pB : CrcParams := { poly := 0x07, init := 0x00, msbFirst := true }
def pC : CrcParams := { poly := 0x31, init := 0x00, msbFirst := false }
def pD : CrcParams := { poly := 0x07, init := 0xFF, msbFirst := false }
def pZero : CrcParams := { poly := 0x00, init := 0xFF, msbFirst := true }

/-- ASCII "123456789". -/
def checkString : List Byte := [0x31, 0x32, 0x33, 0x34, 0x35, 0x36, 0x37, 0x38, 0x39]

theorem test_crc_step_trace :
    (List.range 9).map (fun k => Nat.iterate (stepMsb 0x07) k 0xED) =
      [0xED, 0xDD, 0xBD, 0x7D, 0xFA, 0xF3, 0xE1, 0xC5, 0x8D] := by decide +kernel

theorem test_crc_rev8 : rev8 0x31 = 0x8C ∧ rev8 0x07 = 0xE0 := by decide +kernel

theorem test_crc_check_string :
    crcCompute pA checkString = 0xFB ∧ crcCompute pB checkString = 0xF4 ∧ crcCompute pC checkString = 0xA1 ∧
      crcCompute pD checkString = 0xD0 := by decide +kernel

theorem test_crc_sequences :
    crcCompute pA [0x12, 0x34, 0x56] = 0x57 ∧ crcCompute pB [0x80, 0x00] = 0xB6 ∧
      crcCompute pC [0x80, 0x00, 0x5A] = 0xC7 ∧ crcCompute pD [0x12, 0x34, 0x56, 0xA5] = 0x62 ∧
      crcCompute pA [] = 0xFF := by decide +kernel

theorem test_crc_single_bit_errors :
    crcCompute pA [0x13, 0x34, 0x56] = 0x3C ∧ crcCompute pA [0x12, 0x34, 0x57] = 0x50 ∧
      crcCompute pA [0x92, 0x34, 0x56] = 0x5C ∧ crcVerify pA [0x12, 0x34, 0x56] 0x58 = false := by decide +kernel

/-! ### The decode function, one frame per format and parameter set (95_test_vectors.md 2.6) -/

theorem test_frame_decode_m24c_corrupted :
    frameDecode pA 2 [0x13, 0x34, 0x56, 0x57] = some ⟨0x00133456, 0x00, 0x57, true, some 0x3C⟩ := by decide +kernel
theorem test_frame_decode_m24sc :
    frameDecode pA 3 [0x12, 0x34, 0x56, 0xA5, 0xD0] = some ⟨0x00123456, 0xA5, 0xD0, false, some 0xD0⟩ := by decide +kernel
theorem test_frame_decode_m24sc_lsb_first :
    frameDecode pC 3 [0x13, 0x34, 0x56, 0xA5, 0x32] = some ⟨0x00133456, 0xA5, 0x32, true, some 0xBD⟩ := by decide +kernel
theorem test_frame_decode_m16c :
    frameDecode pB 6 [0x12, 0x34, 0xF1] = some ⟨0x00001234, 0x00, 0xF1, false, some 0xF1⟩ := by decide +kernel
theorem test_frame_decode_m16sc :
    frameDecode pA 7 [0x81, 0x00, 0x5A, 0xA1] = some ⟨0xFFFF8100, 0x5A, 0xA1, true, some 0xCA⟩ := by decide +kernel

/-! ### One instruction on a small state -/

/-- Mode configuration m, these bytes pushed since the last FCLR, results of an earlier frame left behind, ACC = 57. -/
def small (m : BitVec 4) (bytes : List Byte) : State :=
  { State.reset with
    modecfg := m, fb := Memory.ofBytes bytes, cnt := BitVec.ofNat 3 bytes.length, acc := 0x57,
    sample := 0x11223344, status := 0xA5, cksum := 0x99, ckerr := true }

/-- The next state, if there is one. -/
def nextOf (o : Host.Outcome State Fault Refusal) : Option State :=
  match o with
  | .next t => some t
  | _ => none

/-- Sample, status and received checksum of the next state. -/
def dataOf (o : Host.Outcome State Fault Refusal) : Option (Word32 × Byte × Byte) :=
  (nextOf o).map (fun t => (t.sample, t.status, t.cksum))

/-- CNT, ERR and the buffer's written bytes in the next state. -/
def frameOf (o : Host.Outcome State Fault Refusal) : Option (BitVec 3 × BitVec 3 × List Byte) :=
  (nextOf o).map (fun t => (t.cnt, t.err, t.fb.map (fun c => c.2)))

theorem test_setm : (nextOf (exec (.setm 0b0101) (small 0 []))).map (fun t => (t.modecfg, t.flen, t.cnt)) =
    some (0b0101, 3, 0) := by decide

theorem test_setm_keeps_spi3w_bit : (nextOf (exec (.setm 15) (small 0 []))).map (fun t => (t.spi3w, t.flen)) =
    some (true, 4) := by decide

theorem test_fclr_keeps_bytes : frameOf (exec .fclr (small 0 [0xAA, 0x00, 0xFF, 0x01, 0x02])) =
    some (0, 0, [0xAA, 0x00, 0xFF, 0x01, 0x02]) := by decide

theorem test_push_fifth : frameOf (exec (.push 0x02) (small 0 [0xAA, 0x00, 0xFF, 0x01])) =
    some (5, 0, [0xAA, 0x00, 0xFF, 0x01, 0x02]) := by decide

theorem test_push_sixth_is_dropped : frameOf (exec (.push 0x03) (small 0 [0xAA, 0x00, 0xFF, 0x01, 0x02])) =
    some (5, 0b010, [0xAA, 0x00, 0xFF, 0x01, 0x02]) := by decide

theorem test_dec_m24 : dataOf (exec .dec (small 0 [0x80, 0x00, 0x5A])) = some (0xFF80005A, 0x00, 0x00) := by decide

/-- MODECFG = 1101: M16S with SPI3W, which is ignored. -/
theorem test_dec_m16s_spi3w : dataOf (exec .dec (small 0b1101 [0x80, 0x00, 0x5A])) =
    some (0xFFFF8000, 0x5A, 0x00) := by decide

theorem test_fast : dataOf (exec .fast (small 0b1000 [0x12, 0x34, 0x56])) = some (0x00123456, 0x00, 0x00) := by decide

/-- MODECFG = 0100 and CNT = 2: no FrameLength, everything but the four results unchanged. -/
theorem test_fast_outside_its_mode :
    (nextOf (exec .fast (small 0b0100 [0x7F, 0xFF]))).map (fun t => (t.modecfg, t.cnt, t.err, t.acc, t.veq)) =
      some (0b0100, 2, 0, 0x57, false) := by decide

theorem test_cinit : (nextOf (exec .cinit (small 0 []))).map State.acc = some Config.crc.init := rfl

theorem test_cupd : (nextOf (exec (.cupd 0x12) (small 0 []))).map State.acc =
    some (crcUpdate Config.crc 0x57 0x12) := rfl

theorem test_cvfy : (nextOf (exec (.cvfy 0x57) (small 0 []))).map (fun t => (t.veq, t.acc, t.ckerr)) =
    some (true, 0x57, true) := by decide

theorem test_cvfy_differs : (nextOf (exec (.cvfy 0x58) (small 0 []))).map (fun t => (t.veq, t.err)) =
    some (false, 0) := by decide

theorem test_f24 : dataOf (exec (.f24 0xFFFFFF) (small 0 [0xFF, 0xFF, 0xFF])) = some (0xFFFFFFFF, 0, 0) := by decide
theorem test_f24s : dataOf (exec (.f24s 0x800000 0xA5) (small 1 [0x80, 0, 0, 0xA5])) =
    some (0xFF800000, 0xA5, 0) := by decide
theorem test_f24c : dataOf (exec (.f24c 0x123456 0x57) (small 2 [0x12, 0x34, 0x56, 0x57])) =
    some (0x00123456, 0, 0x57) := by decide
theorem test_f24sc : dataOf (exec (.f24sc 0x123456 0xA5 0xD0) (small 3 [0x12, 0x34, 0x56, 0xA5, 0xD0])) =
    some (0x00123456, 0xA5, 0xD0) := by decide
theorem test_f16 : dataOf (exec (.f16 0x7FFF) (small 4 [0x7F, 0xFF])) = some (0x00007FFF, 0, 0) := by decide
theorem test_f16s : dataOf (exec (.f16s 0x8000 0x5A) (small 5 [0x80, 0, 0x5A])) = some (0xFFFF8000, 0x5A, 0) := by
  decide
theorem test_f16c : dataOf (exec (.f16c 0x1234 0x26) (small 6 [0x12, 0x34, 0x26])) = some (0x00001234, 0, 0x26) := by
  decide
theorem test_f16sc : dataOf (exec (.f16sc 0x8000 0x5A 0xA1) (small 7 [0x80, 0, 0x5A, 0xA1])) =
    some (0xFFFF8000, 0x5A, 0xA1) := by decide

theorem test_format_needs_its_length : frameOf (exec (.f16 0x7FFF) (small 4 [0x7F, 0xFF, 0x01])) =
    some (3, 0b100, [0x7F, 0xFF, 0x01]) := by decide

theorem test_step_from_reset_dec : frameOf (step (State.reset.present 0x200)) = some (0, 0b100, []) := by decide

theorem test_step_illegal_word :
    (nextOf (step ((small 4 []).present 0x7F0))).map (fun t => (t.modecfg, t.err, t.port)) = some (4, 0b001, []) := by
  decide

theorem test_step_runs_a_placed_frame :
    dataOf (step (State.reset.withFetchWord 40 0x123456A5D0)) = some (0x00123456, 0xA5, 0xD0) := by decide

theorem test_step_runs_a_placed_word :
    (nextOf (step (State.reset.withFetchWord 16 0x70F))).map State.modecfg = some 15 := by decide

/-! ### Witnesses: for every obligation with hypotheses, inputs that meet all of them together -/

/-- A reset edge that presents an illegal word as well. -/
def resetWithWord : PortInput := { rst := true, cmdValid := true, cmd := 0x001 }

theorem test_witness_ResetEdgeTakesResetState :
    resetWithWord.rst = true ∧
      (nextOf (step { small 5 [0x80, 0, 0x5A] with port := [resetWithWord] })).map
        (fun t => (t.modecfg, t.cnt, t.err, t.fb)) = some (0, 0, 0, []) := by decide

theorem test_witness_StepExecutesPresentedWord :
    (PortInput.command 0x70F).rst = false ∧ (PortInput.command 0x70F).cmdValid = true ∧
      decode (.command (PortInput.command 0x70F).cmd) = .ok (.setm 15) ∧
      decode (.command (PortInput.command 0x710).cmd) = .error (.illegalCommand 0x710) := by decide

theorem test_witness_EdgeWithoutCommandChangesNothing :
    State.reset.port = [] ∧ PortInput.idle.rst = false ∧ PortInput.idle.cmdValid = false := by decide

theorem test_witness_IllegalWordsSetOnlyIll :
    illegalWord 0x001 = true ∧ illegalWord 0x2FF = true ∧ illegalWord 0x301 = true ∧ illegalWord 0x4FF = true ∧
      illegalWord 0x710 = true ∧ illegalWord 0x7FF = true ∧ illegalWord 0x70F = false ∧ illegalWord 0x000 = false ∧
      illegalWord 0x1FF = false := by decide

/-- Each row's first and last word. -/
theorem test_witness_OpcodeMapDecidesEveryWord :
    0x100#11 &&& 0x700 = 0x100 ∧ 0x1FF#11 &&& 0x700 = 0x100 ∧ 0x5FF#11 &&& 0x700 = 0x500 ∧
      0x600#11 &&& 0x700 = 0x600 ∧ 0x70F#11 &&& 0x7F0 = 0x700 ∧ ¬ 0x710#11 &&& 0x7F0 = 0x700 := by decide

theorem test_witness_EncodeRebuildsWhatWasDecoded :
    decode (.frame 2 [0x80, 0, 0, 0xA5]) = .ok (.f24c 0x800000 0xA5) ∧ decode (.command 0x7FF) ≠ .ok (.setm 15) ∧
      encode (.f24c 0x800000 0xA5) = .frame 2 [0x80, 0, 0, 0xA5] := by decide

theorem test_witness_MemReadIsBigEndian :
    (∀ i, i < 5 → (Memory.ofBytes [1, 2, 3, 4, 0xFF]).readByte (0 + i) =
        .ok ([1, 2, 3, 4, 0xFF].getD i 0)) ∧
      (Memory.ofBytes [1, 2, 3, 4, 0xFF]).memRead 0 5 = .ok 0x01020304FF ∧
      (∀ i, i < 1 → (Memory.ofBytes [1, 2, 3, 4, 0xFF]).readByte (4 + i) = .ok 0xFF) := by decide

/-- The words of each opcode that the "every word of its opcode" clauses speak of: the legal and the illegal case. -/
theorem test_witness_opcode_clauses :
    opField 0x70F = 7 ∧ (0x70F#11).extractLsb' 4 4 = 0 ∧ opField 0x710 = 7 ∧ ¬ (0x710#11).extractLsb' 4 4 = 0 ∧
      opField 0x000 = 0 ∧ opField 0x0FF = 0 ∧ opField 0x1FF = 1 ∧ opField 0x200 = 2 ∧ opField 0x280 = 2 ∧
      opField 0x300 = 3 ∧ opField 0x301 = 3 ∧ opField 0x400 = 4 ∧ opField 0x4FF = 4 ∧ opField 0x5A5 = 5 ∧
      argField 0x5A5 = 0xA5 ∧ opField 0x600 = 6 := by decide

theorem test_witness_PushAppendsOneByte :
    (small 0 [1, 2, 3, 4]).cnt.toNat ≤ 4 ∧ (small 0 []).cnt.toNat ≤ 4 ∧ (small 0 [1, 2, 3, 4, 5]).cnt = 5 ∧
      opField 0x100 = 1 := by decide

/-- Five PUSHes with a SETM, a DEC, an illegal word and an idle edge among them. -/
def fivePushes : List PortInput :=
  [.command 0x1AA, .command 0x703, .command 0x100, .command 0x200, .command 0x1FF, .command 0x001, .command 0x101,
    .idle, .command 0x102]

theorem test_witness_PushesAfterFclrStandInOrder :
    (∀ p ∈ fivePushes, keepsFrame p) ∧ (pushedBytes fivePushes).length ≤ 5 ∧
      pushedBytes fivePushes = [0xAA, 0x00, 0xFF, 0x01, 0x02] := by
  refine ⟨?_, by decide, by decide⟩
  unfold keepsFrame
  decide

theorem test_witness_SingleBitErrorsAreCaught :
    [0x12#8, 0x34, 0x56][0]? = some 0x12 ∧ [0x12#8, 0x34, 0x56].set 0 (0x12 ^^^ (1#8 <<< 7)) = [0x92, 0x34, 0x56] ∧
      [0x12#8, 0x34, 0x56][2]? = some 0x56 ∧ [0x12#8, 0x34, 0x56].set 2 (0x56 ^^^ (1#8 <<< 0)) = [0x12, 0x34, 0x57] := by
  decide

/-- The counter-case of R83: with polynomial 00 the error from 12 34 to 13 34 is missed. -/
theorem test_witness_NonzeroPolynomialIsExactlyWhatIsNeeded :
    pZero.poly = 0 ∧ crcCompute pZero [0x12, 0x34] = 0 ∧ crcCompute pZero [0x13, 0x34] = 0 ∧ pA.poly ≠ 0 := by
  decide +kernel

/-- CINIT at reset, then CUPD 12, an FCLR that R87 allows, and CUPD 34. -/
def hostRun : State :=
  { State.reset with port := [.command 0x400, .command 0x512, .command 0x000, .command 0x534] }

/-- The states after CINIT, after CUPD 12, after FCLR and after CUPD 34. -/
def hostRun1 : State := { hostRun with port := [.command 0x512, .command 0x000, .command 0x534], acc := Config.crc.init }
def hostRun2 : State :=
  { hostRun with port := [.command 0x000, .command 0x534], acc := crcUpdate Config.crc Config.crc.init 0x12 }
def hostRun3 : State := { hostRun2 with port := [.command 0x534], cnt := 0 }
def hostRun4 : State := { hostRun3 with port := [], acc := crcUpdate Config.crc hostRun3.acc 0x34 }

theorem test_witness_leavesAcc : leavesAcc hostRun2 (.command 0x000) := by
  refine ⟨rfl, fun _ i h => ?_⟩
  rw [show decode (.command (PortInput.command 0x000).cmd) = .ok .fclr by decide] at h
  cases h
  exact ⟨by decide, fun b => Instr.noConfusion, fun hd => Instr.noConfusion hd⟩

theorem test_witness_HostComputesAndVerifies :
    step hostRun = .next hostRun1 ∧ Folds hostRun1 [0x12, 0x34] hostRun4 :=
  ⟨rfl, .cupd hostRun1 hostRun2 hostRun4 0x12 [0x34] _ rfl rfl
    (.quiet hostRun2 hostRun3 hostRun4 (.command 0x000) [0x34] _ rfl test_witness_leavesAcc rfl
      (.cupd hostRun3 hostRun4 hostRun4 0x34 [] _ rfl rfl (.done hostRun4)))⟩

/-- A frame of the mode's length for every mode. -/
def frameBytes (mode : ModeCode) : List Byte := [0x80, 0x00, 0x5A, 0xA1, 0xD0].take (frameLength mode)

def frameState (mode : ModeCode) : State := small (0#1 ++ mode) (frameBytes mode)

theorem test_witness_decoding_in_every_mode :
    ∀ mode : ModeCode, (frameState mode).mode = mode ∧ (frameState mode).cnt.toNat = frameLength mode ∧
      (frameState mode).fb.readBytes 0 (frameLength mode) = .ok (frameBytes mode) ∧
      ∀ i, i < frameLength mode → (frameState mode).fb.readByte i = .ok ((frameBytes mode).getD i 0) := by
  decide

/-- One byte more than the frame length where that fits, and none at all. -/
theorem test_witness_wrong_count_in_every_mode :
    ∀ mode : ModeCode, (small (0#1 ++ mode) []).mode = mode ∧
      (small (0#1 ++ mode) []).cnt.toNat ≠ frameLength mode ∧
      (small (0#1 ++ mode) (frameBytes mode ++ [0])).cnt.toNat ≠ frameLength mode := by
  decide

theorem test_witness_DecDecodesTheFrame (mode : ModeCode) :
    (frameState mode).cnt.toNat = frameLength (frameState mode).mode ∧
      ∀ i, i < frameLength (frameState mode).mode → holds (frameState mode) i ((frameBytes mode).getD i 0) := by
  obtain ⟨hm, hc, _, hb⟩ := test_witness_decoding_in_every_mode mode
  rw [hm]
  exact ⟨hc, hb⟩

theorem test_witness_FormatF24 : (frameState 0).mode = 0 ∧ (frameState 0).cnt.toNat = 3 ∧
    holds (frameState 0) 0 0x80 ∧ holds (frameState 0) 1 0x00 ∧ holds (frameState 0) 2 0x5A :=
  ⟨rfl, rfl, rfl, rfl, rfl⟩

theorem test_witness_FormatF24S : (frameState 1).mode = 1 ∧ (frameState 1).cnt.toNat = 4 ∧
    holds (frameState 1) 0 0x80 ∧ holds (frameState 1) 1 0x00 ∧ holds (frameState 1) 2 0x5A ∧
    holds (frameState 1) 3 0xA1 :=
  ⟨rfl, rfl, rfl, rfl, rfl, rfl⟩

theorem test_witness_FormatF24C : (frameState 2).mode = 2 ∧ (frameState 2).cnt.toNat = 4 ∧
    holds (frameState 2) 0 0x80 ∧ holds (frameState 2) 1 0x00 ∧ holds (frameState 2) 2 0x5A ∧
    holds (frameState 2) 3 0xA1 :=
  ⟨rfl, rfl, rfl, rfl, rfl, rfl⟩

theorem test_witness_FormatF24SC : (frameState 3).mode = 3 ∧ (frameState 3).cnt.toNat = 5 ∧
    holds (frameState 3) 0 0x80 ∧ holds (frameState 3) 1 0x00 ∧ holds (frameState 3) 2 0x5A ∧
    holds (frameState 3) 3 0xA1 ∧ holds (frameState 3) 4 0xD0 :=
  ⟨rfl, rfl, rfl, rfl, rfl, rfl, rfl⟩

theorem test_witness_FormatF16 : (frameState 4).mode = 4 ∧ (frameState 4).cnt.toNat = 2 ∧
    holds (frameState 4) 0 0x80 ∧ holds (frameState 4) 1 0x00 :=
  ⟨rfl, rfl, rfl, rfl⟩

theorem test_witness_FormatF16S : (frameState 5).mode = 5 ∧ (frameState 5).cnt.toNat = 3 ∧
    holds (frameState 5) 0 0x80 ∧ holds (frameState 5) 1 0x00 ∧ holds (frameState 5) 2 0x5A :=
  ⟨rfl, rfl, rfl, rfl, rfl⟩

theorem test_witness_FormatF16C : (frameState 6).mode = 6 ∧ (frameState 6).cnt.toNat = 3 ∧
    holds (frameState 6) 0 0x80 ∧ holds (frameState 6) 1 0x00 ∧ holds (frameState 6) 2 0x5A :=
  ⟨rfl, rfl, rfl, rfl, rfl⟩

theorem test_witness_FormatF16SC : (frameState 7).mode = 7 ∧ (frameState 7).cnt.toNat = 4 ∧
    holds (frameState 7) 0 0x80 ∧ holds (frameState 7) 1 0x00 ∧ holds (frameState 7) 2 0x5A ∧
    holds (frameState 7) 3 0xA1 :=
  ⟨rfl, rfl, rfl, rfl, rfl, rfl⟩

/-- FAST: in its mode with three bytes, in its mode with another count, and outside its mode. -/
theorem test_witness_FastDecodesInItsMode :
    ((frameState 0).mode = 0 ∧ (frameState 0).cnt = 3 ∧ holds (frameState 0) 0 0x80 ∧ holds (frameState 0) 1 0x00 ∧
        holds (frameState 0) 2 0x5A) ∧
      ((small 0 [1, 2]).mode = 0 ∧ (small 0 [1, 2]).cnt ≠ 3) ∧ (frameState 7).mode ≠ 0 :=
  ⟨⟨rfl, rfl, rfl, rfl, rfl⟩, ⟨rfl, by decide⟩, by decide⟩

theorem test_witness_FastEqualsDecInModeZero : (small 0b1000 [0x12, 0x34, 0x56]).mode = 0 := by decide

theorem test_witness_DecRunsTheFrameItReads (mode : ModeCode) :
    (frameState mode).cnt.toNat = frameLength (frameState mode).mode ∧
      (frameState mode).fb.readBytes 0 (frameLength (frameState mode).mode) = .ok (frameBytes mode) := by
  obtain ⟨hm, hc, hb, _⟩ := test_witness_decoding_in_every_mode mode
  rw [hm]
  exact ⟨hc, hb⟩

theorem test_witness_DecIsIdempotent :
    (∃ t, exec .dec (frameState 0) = .next t) ∧ (frameState 0).mode = 0 ∧ ∃ t, exec .dec (frameState 3) = .next t :=
  ⟨⟨_, rfl⟩, rfl, ⟨_, rfl⟩⟩

/-- A buffer whose last byte is the recomputed checksum, whatever the parameters are. -/
theorem test_witness_MismatchSuppressesNothing :
    cksumEn (frameState 2).mode = true ∧ (frameState 2).cnt.toNat = frameLength (frameState 2).mode ∧
      (∀ i, i < frameLength (frameState 2).mode → holds (frameState 2) i ((frameBytes 2).getD i 0)) ∧
      ∃ (t : State) (m : Memory), exec .dec (frameState 2) = .next t ∧
        (∀ i, i < frameLength (frameState 2).mode - 1 → m.readByte i = .ok ((frameBytes 2).getD i 0)) ∧
        m.readByte (frameLength (frameState 2).mode - 1) = .ok t.acc := by
  refine ⟨rfl, rfl, (test_witness_DecDecodesTheFrame 2).2, _, (frameState 2).fb.insert 3 _, rfl, ?_,
    Memory.readByte_insert_same _ _ _ (by decide)⟩
  intro i hi
  have h3 : i < 3 := hi
  rw [Memory.readByte_insert_other _ _ _ _ (by omega)]
  exact (test_witness_DecDecodesTheFrame 2).2 i (Nat.lt_succ_of_lt h3)

theorem test_witness_RegisterOperationsFrame :
    (∃ t, exec .fclr (frameState 3) = .next t) ∧ (∃ t, exec (.setm 15) (frameState 3) = .next t) ∧
      (∃ t, exec .cinit (frameState 3) = .next t) ∧ (∃ t, exec (.cupd 0xFF) (frameState 3) = .next t) ∧
      ∃ t, exec (.cvfy 0x57) (frameState 3) = .next t :=
  ⟨⟨_, rfl⟩, ⟨_, rfl⟩, ⟨_, rfl⟩, ⟨_, rfl⟩, ⟨_, rfl⟩⟩

/-- PUSH at CNT 4, 5 and 7 (the last is no legal value, log entry 6). -/
theorem test_witness_PushFrame :
    (∃ t, exec (.push 1) (small 0 [1, 2, 3, 4]) = .next t) ∧ (∃ t, exec (.push 1) (small 0 [1, 2, 3, 4, 5]) = .next t) ∧
      ∃ t, exec (.push 1) { small 0 [1, 2, 3, 4, 5] with cnt := 7 } = .next t :=
  ⟨⟨_, rfl⟩, ⟨_, rfl⟩, ⟨_, rfl⟩⟩

theorem test_witness_DecodingFrame :
    (∃ t, exec .dec (frameState 6) = .next t) ∧ (∃ t, exec .fast (frameState 6) = .next t) ∧
      (Instr.f16sc 0x8000 0x5A 0xA1).wellFormedAt (.buffer 7) = true ∧
      (∃ t, exec (.f16sc 0x8000 0x5A 0xA1) (frameState 7) = .next t) ∧ cksumEn (frameState 5).mode = false ∧
      ∃ t, exec .dec (frameState 5) = .next t :=
  ⟨⟨_, rfl⟩, ⟨_, rfl⟩, rfl, ⟨_, rfl⟩, rfl, ⟨_, rfl⟩⟩

/-- Each clause's register is in fact changed by some operation. -/
theorem test_witness_EachRegisterHasItsWriters :
    (∃ t, exec (.setm 15) (frameState 0) = .next t ∧ t.modecfg ≠ (frameState 0).modecfg) ∧
      (∃ t, exec .fclr (frameState 0) = .next t ∧ t.cnt ≠ (frameState 0).cnt) ∧
      (∃ t, exec (.push 1) (frameState 0) = .next t ∧ t.cnt ≠ (frameState 0).cnt ∧ t.fb ≠ (frameState 0).fb) ∧
      (∃ t, exec (.cvfy 0x57) (frameState 0) = .next t ∧ t.veq ≠ (frameState 0).veq) ∧
      ∃ t, exec .dec (frameState 0) = .next t ∧ t.sample ≠ (frameState 0).sample :=
  ⟨⟨_, rfl, by decide⟩, ⟨_, rfl, by decide⟩, ⟨_, rfl, by decide, by decide⟩, ⟨_, rfl, by decide⟩,
    ⟨_, rfl, by decide⟩⟩

theorem test_byte_has_another : ∀ b : Byte, b ≠ b ^^^ 1 := by decide

/-- ACC is changed by CINIT and by a DEC with a checksum byte, whatever the parameters are. -/
theorem test_witness_EachRegisterHasItsWriters_acc :
    (∃ s t, exec .cinit s = .next t ∧ t.acc ≠ s.acc) ∧
      ∃ s t, exec .dec s = .next t ∧ t.acc ≠ s.acc ∧ cksumEn s.mode = true :=
  ⟨⟨{ frameState 0 with acc := Config.crc.init ^^^ 1 }, _, rfl, test_byte_has_another _⟩,
    ⟨{ frameState 2 with acc := crcCompute Config.crc [0x80, 0x00, 0x5A] ^^^ 1 }, _, rfl, test_byte_has_another _, rfl⟩⟩

/-- ERR is changed by PUSH on a full buffer, and by DEC, FAST and a format on a wrong count. -/
theorem test_witness_EachRegisterHasItsWriters_err :
    (∃ t, exec (.push 1) (frameState 3) = .next t ∧ t.err ≠ (frameState 3).err) ∧
      (∃ t, exec .dec (small 0 [1, 2]) = .next t ∧ t.err ≠ (small 0 [1, 2]).err) ∧
      (∃ t, exec .fast (small 0 [1, 2]) = .next t ∧ t.err ≠ (small 0 [1, 2]).err) ∧
      ∃ t, exec (.f16 0x7FFF) (small 4 [1]) = .next t ∧ t.err ≠ (small 4 [1]).err :=
  ⟨⟨_, rfl, by decide⟩, ⟨_, rfl, by decide⟩, ⟨_, rfl, by decide⟩, ⟨_, rfl, by decide⟩⟩

theorem test_witness_Spi3wIsReadByNothing : ∀ m, Instr.dec ≠ .setm m := by decide

/-- Another byte at address CNT and a byte at 4 that the other buffer lacks. -/
theorem test_witness_BytesAboveCntAreNeverRead :
    (∀ b, Instr.dec ≠ .push b) ∧
      ∀ a, a < (frameState 0).cnt.toNat →
        ((frameState 0).fb ++ [(3, 0xEE), (4, 0xDD)] : Memory).readByte a = (frameState 0).fb.readByte a := by
  decide

theorem test_witness_ResultsDependOnNothingHidden :
    ∃ s t : State, s.modecfg = (frameState 7).modecfg ∧ s.cnt = (frameState 7).cnt ∧ s.fb = (frameState 7).fb ∧
      s.acc ≠ (frameState 7).acc ∧ exec .dec (frameState 7) = .next t ∧
      (frameState 7).cnt.toNat = frameLength (frameState 7).mode ∧ cksumEn (frameState 7).mode = true :=
  ⟨{ frameState 7 with acc := 0x00, sample := 0, err := 0b111 }, _, rfl, rfl, rfl, by decide, rfl, rfl, rfl⟩

/-- A decode that writes the results, one that keeps them, CVFY, and an instruction that keeps VEQ. -/
theorem test_witness_ResultRegistersAreReadByNothing :
    (∃ t, exec .dec (frameState 0) = .next t ∧ ¬ sameResults (frameState 0) t) ∧
      (∃ t, exec .dec (small 0 [1, 2]) = .next t ∧ sameResults (small 0 [1, 2]) t) ∧
      (∃ t, exec (.cvfy 0x57) (frameState 0) = .next t ∧ t.veq ≠ (frameState 0).veq) ∧
      (∀ e, Instr.push 1 ≠ .cvfy e) ∧ ∃ t, exec (.push 1) (frameState 0) = .next t :=
  ⟨⟨_, rfl, fun h => absurd h.1 (by decide)⟩, ⟨_, rfl, rfl, rfl, rfl, rfl⟩, ⟨_, rfl, by decide⟩, by decide, ⟨_, rfl⟩⟩

theorem test_witness_Inv (mode : ModeCode) : (frameState mode).Inv := by
  obtain ⟨_, hc, _, hb⟩ := test_witness_decoding_in_every_mode mode
  refine ⟨?_, hc ▸ (frameLength_bounds mode).2, fun a ha => ⟨_, hb a (hc ▸ ha)⟩⟩
  revert mode
  decide

theorem test_witness_reset_Inv : State.reset.Inv :=
  ⟨by decide, by decide, fun a ha => absurd ha (Nat.not_lt_zero a)⟩

/-- Each fault in a state that meets the invariant, and words that raise none. -/
theorem test_witness_FaultsInOrderWriteOnlyTheirBit :
    (frameState 3).Inv ∧ raisedBits (frameState 3) 0x2FF = 0b001 ∧ raisedBits (frameState 3) 0x1FF = 0b010 ∧
      raisedBits (small 1 [1, 2, 3]) 0x200 = 0b100 ∧ raisedBits (small 0 [1, 2]) 0x300 = 0b100 ∧
      raisedBits (small 4 [1, 2, 3]) 0x300 = 0 ∧ raisedBits (frameState 3) 0x200 = 0 ∧
      raisedBits (small 0 [1, 2, 3, 4]) 0x1FF = 0 :=
  ⟨test_witness_Inv 3, by decide, by decide, by decide, by decide, by decide, by decide, by decide⟩

/-- An edge that raises a fault, and a reset edge after faults. -/
theorem test_witness_OnlyResetClearsErr :
    (∃ t, step (presenting (small 0 []) 0x001 []) = .next t) ∧ (PortInput.command 0x001).rst = false ∧
      ∃ t, step { small 0 [] with err := 0b111, port := [PortInput.reset] } = .next t :=
  ⟨⟨_, rfl⟩, rfl, ⟨_, rfl⟩⟩

theorem test_witness_StepKeepsInv :
    (frameState 2).Inv ∧ ∃ t, step (frameState 2) = .next t :=
  ⟨test_witness_Inv 2, ⟨_, rfl⟩⟩

theorem test_witness_RunsNeverStop :
    (frameState 2).Inv ∧ ∃ t, runSteps 1 (frameState 2) = .next t :=
  ⟨test_witness_Inv 2, ⟨_, rfl⟩⟩

theorem test_witness_ScriptsSpellNoIllegalWord :
    (Line.frame [0, 255]).wellFormed = true ∧ (∀ w, Line.frame [0, 255] ≠ .word w) ∧
      PortInput.command 0x1FF ∈ expandLine (.frame [0, 255]) ∧ (PortInput.command 0x1FF).cmdValid = true := by
  refine ⟨by decide, by simp, by decide, by decide⟩

end Sys2Proof.Tests
end

/-! Proofs of the family 10_state.md: what a clock edge does, what each instruction reads and writes, and what every
edge keeps. -/

namespace Sys2Proof.Proofs

open Sys2Proof.Machine Sys2Proof.Claims

/-! ### What an instruction writes, apart from the state it writes on

`exec` is cut into two parts: `effect` reads MODE, CNT, ACC and FB and answers one `Write`, and `Write.apply` carries the
write out. What an instruction depends on is then a fact about `effect`, and what it changes a fact about `Write`. -/

/-- The writes of R23: one per group of registers that an operation writes together. -/
inductive Write where
  | modecfg (m : BitVec 4)
  | cnt (n : BitVec 3)
  | frame (m : Memory) (n : BitVec 3)
  | acc (a : Byte)
  | veq (v : Bool)
  | data (c : ChannelData)
  | unspecified
  | raised (k : FaultBit)

/-- The state after a write. -/
def Write.apply : Write → State → State
  | .modecfg m, s => s.setModecfg m
  | .cnt n, s => s.setCnt n
  | .frame m n, s => s.setFrame m n
  | .acc a, s => s.setAcc a
  | .veq v, s => s.setVeq v
  | .data c, s => s.deliver c
  | .unspecified, s => s.unspecifyResults
  | .raised k, s => s.setErr (s.err ||| k.bit)

/-- The write of an operation that wants exactly `len` bytes pushed: the data, or FrameLength (R100, R110). -/
def countedWrite (len : Nat) (s : State) (c : ChannelData) : Write :=
  if s.cnt.toNat = len then .data c else .raised .frameLength

/-- DEC's write, or the byte on which it stops (R100). -/
def decEffect (s : State) : Except Fault Write :=
  if s.cnt.toNat = frameLength s.mode then
    (s.fb.readBytes 0 (frameLength s.mode)).map fun bytes =>
      match frameDecode Config.crc s.mode bytes with
      | some c => .data c
      | none => .raised .frameLength
  else .ok (.raised .frameLength)

/-- FAST's write, or the byte on which it stops (R110, R112). -/
def fastEffect (s : State) : Except Fault Write :=
  if s.mode ≠ 0 then .ok .unspecified
  else if s.cnt.toNat = 3 then
    (s.fb.memRead 0 3).map fun raw24 => .data (uncheckedData (sext32 raw24) 0)
  else .ok (.raised .frameLength)

/-- PUSH's write (R68, R35). -/
def pushWrite (b : Byte) (s : State) : Write :=
  if s.cnt.toNat < fbSize then .frame (s.fb.insert s.cnt.toNat b) (s.cnt + 1) else .raised .frameOverflow

/-- What an instruction writes, read off the state; only DEC and FAST can stop. -/
def effect (i : Instr) (s : State) : Except Fault Write :=
  match i with
  | .fclr => .ok (.cnt 0)
  | .push b => .ok (pushWrite b s)
  | .dec => decEffect s
  | .fast => fastEffect s
  | .cinit => .ok (.acc Config.crc.init)
  | .cupd b => .ok (.acc (crcUpdate Config.crc s.acc b))
  | .cvfy e => .ok (.veq (verified s.acc e))
  | .setm m => .ok (.modecfg m)
  | .f24 d => .ok (countedWrite 3 s (uncheckedData (sext32 d) 0))
  | .f24s d st => .ok (countedWrite 4 s (uncheckedData (sext32 d) st))
  | .f24c d c => .ok (countedWrite 4 s (checkedData (sext32 d) 0 (bytesOf24 d) c))
  | .f24sc d st c => .ok (countedWrite 5 s (checkedData (sext32 d) st (bytesOf24 d ++ [st]) c))
  | .f16 d => .ok (countedWrite 2 s (uncheckedData (sext32 d) 0))
  | .f16s d st => .ok (countedWrite 3 s (uncheckedData (sext32 d) st))
  | .f16c d c => .ok (countedWrite 3 s (checkedData (sext32 d) 0 (bytesOf16 d) c))
  | .f16sc d st c => .ok (countedWrite 4 s (checkedData (sext32 d) st (bytesOf16 d ++ [st]) c))

/-- The outcome of an effect on a state. -/
def outcomeOf (s : State) : Except Fault Write → Host.Outcome State Fault Refusal
  | .ok w => .next (w.apply s)
  | .error f => .fault f

theorem completeFrame_eq_countedWrite (len : Nat) (c : ChannelData) (s : State) :
    completeFrame len c s = outcomeOf s (.ok (countedWrite len s c)) := by
  unfold countedWrite
  rcases completeFrame_spec len c s with ⟨h, he⟩ | ⟨h, he⟩ <;> rw [he] <;> simp [h, outcomeOf, Write.apply]

theorem execPush_eq_pushWrite (b : Byte) (s : State) : execPush b s = outcomeOf s (.ok (pushWrite b s)) := by
  unfold pushWrite
  rcases execPush_spec b s with ⟨h, he⟩ | ⟨h, he⟩ <;> rw [he] <;> simp [h, outcomeOf, Write.apply]

theorem execDec_eq_decEffect (s : State) : execDec s = outcomeOf s (decEffect s) := by
  unfold decEffect
  rcases execDec_spec s with ⟨h, bytes, c, hr, hc, he⟩ | ⟨h, he⟩ | ⟨h, f, hr, he⟩
  · rw [he, if_pos h, hr]; simp [Except.map, hc, outcomeOf, Write.apply]
  · rw [he, if_neg h]; rfl
  · rw [he, if_pos h, hr]; rfl

theorem execFast_eq_fastEffect (s : State) : execFast s = outcomeOf s (fastEffect s) := by
  unfold fastEffect
  rcases execFast_spec s with ⟨hm, he⟩ | ⟨hm, hc, raw, hr, he⟩ | ⟨hm, hc, he⟩ | ⟨hm, hc, f, hr, he⟩
  · rw [he, if_pos hm]; rfl
  · rw [he, if_neg (not_not.2 hm), if_pos hc, hr]; rfl
  · rw [he, if_neg (not_not.2 hm), if_neg hc]; rfl
  · rw [he, if_neg (not_not.2 hm), if_pos hc, hr]; rfl

/-- `exec` is its effect carried out. -/
theorem exec_eq_outcomeOf_effect (i : Instr) (s : State) : exec i s = outcomeOf s (effect i s) := by
  cases i with
  | fclr | cinit | cupd | cvfy | setm => rfl
  | push b => exact execPush_eq_pushWrite b s
  | dec => exact execDec_eq_decEffect s
  | fast => exact execFast_eq_fastEffect s
  | f24 | f24s | f24c | f24sc | f16 | f16s | f16c | f16sc => exact completeFrame_eq_countedWrite _ _ s

/-- An instruction completes exactly when its effect is a write, and then the next state is that write's. -/
theorem exec_eq_next_iff {i : Instr} {s t : State} :
    exec i s = .next t ↔ ∃ w, effect i s = .ok w ∧ t = w.apply s := by
  rw [exec_eq_outcomeOf_effect]
  cases effect i s <;> simp [outcomeOf, eq_comm]

/-! ### Which instructions make which write -/

/-- The received frame has a checksum byte: CKSUM_EN of MODE for DEC, of the format's own mode code for a format. -/
def ReadsChecksum (i : Instr) (s : State) : Prop :=
  (i = .dec ∧ cksumEn s.mode = true) ∨ ∃ mode, i.wellFormedAt (.buffer mode) = true ∧ cksumEn mode = true

/-- DEC, FAST in its mode, or a frame format: what delivers data, or raises FrameLength. -/
def Decodes (i : Instr) (s : State) : Prop :=
  i = .dec ∨ (i = .fast ∧ s.mode = 0) ∨ ∃ mode, i.wellFormedAt (.buffer mode) = true

/-- The instruction and the state that a write comes from. -/
def Write.ComesFrom (i : Instr) (s : State) : Write → Prop
  | .modecfg m => i = .setm m
  | .cnt n => i = .fclr ∧ n = 0
  | .frame m n => ∃ b, i = .push b ∧ s.cnt.toNat < fbSize ∧ m = s.fb.insert s.cnt.toNat b ∧ n = s.cnt + 1
  | .acc _ => i = .cinit ∨ ∃ b, i = .cupd b
  | .veq _ => ∃ e, i = .cvfy e
  | .data c => Decodes i s ∧ (c.recomputed.isSome = true → ReadsChecksum i s)
  | .unspecified => i = .fast ∧ s.mode ≠ 0
  | .raised k => (k = .frameOverflow ∧ (∃ b, i = .push b) ∧ ¬ s.cnt.toNat < fbSize) ∨ (k = .frameLength ∧ Decodes i s)

/-- The decode function recomputes a checksum exactly under CKSUM_EN (R96). -/
theorem frameDecode_recomputed {p : CrcParams} {mode : ModeCode} {f : List Byte} {c : ChannelData}
    (h : frameDecode p mode f = some c) : c.recomputed.isSome = cksumEn mode := by
  unfold frameDecode at h
  split at h
  · split at h
    · cases h; cases cksumEn mode <;> rfl
    · cases h
  · cases h

theorem pushWrite_comesFrom (b : Byte) (s : State) : (pushWrite b s).ComesFrom (.push b) s := by
  unfold pushWrite
  split
  · next h => exact ⟨b, rfl, h, rfl, rfl⟩
  · next h => exact .inl ⟨rfl, ⟨b, rfl⟩, h⟩

/-- With the frame's count of bytes pushed, DEC's write is data, with a checksum exactly under CKSUM_EN. -/
theorem decEffect_of_count {s : State} {w : Write} (hn : s.cnt.toNat = frameLength s.mode)
    (h : decEffect s = .ok w) : ∃ c, w = .data c ∧ c.recomputed.isSome = cksumEn s.mode := by
  rw [decEffect, if_pos hn] at h
  cases hr : s.fb.readBytes 0 (frameLength s.mode) with
  | error f => rw [hr] at h; cases h
  | ok bytes =>
    obtain ⟨c, hc⟩ := (frameDecode_isSome Config.crc s.mode bytes).2 (Memory.readBytes_length hr)
    simp only [hr, Except.map, hc, Except.ok.injEq] at h
    exact ⟨c, h.symm, frameDecode_recomputed hc⟩

theorem decEffect_comesFrom {s : State} {w : Write} (h : decEffect s = .ok w) : w.ComesFrom .dec s := by
  by_cases hn : s.cnt.toNat = frameLength s.mode
  · obtain ⟨c, rfl, hsum⟩ := decEffect_of_count hn h
    exact ⟨.inl rfl, fun hsome => .inl ⟨rfl, hsum ▸ hsome⟩⟩
  · rw [decEffect, if_neg hn] at h
    cases h
    exact .inr ⟨rfl, .inl rfl⟩

theorem fastEffect_comesFrom {s : State} {w : Write} (h : fastEffect s = .ok w) : w.ComesFrom .fast s := by
  unfold fastEffect at h
  split at h
  · next hm => cases h; exact ⟨rfl, hm⟩
  · next hm =>
    have hdec : Decodes .fast s := .inr (.inl ⟨rfl, not_not.1 hm⟩)
    split at h
    · cases hr : s.fb.memRead 0 3 with
      | error f => rw [hr] at h; cases h
      | ok raw => rw [hr] at h; cases h; exact ⟨hdec, fun hsome => nomatch hsome⟩
    · cases h; exact .inr ⟨rfl, hdec⟩

/-- A format delivers the data its mode code calls for, or raises FrameLength. -/
theorem countedWrite_comesFrom {i : Instr} {mode : ModeCode} {s : State} {len : Nat} {c : ChannelData}
    (hi : i.source = .buffer mode) (hc : c.recomputed.isSome = cksumEn mode) :
    (countedWrite len s c).ComesFrom i s := by
  have hwf : i.wellFormedAt (.buffer mode) = true := decide_eq_true hi
  have hdec : Decodes i s := .inr (.inr ⟨mode, hwf⟩)
  unfold countedWrite
  split
  · exact ⟨hdec, fun hsome => .inr ⟨mode, hwf, hc ▸ hsome⟩⟩
  · exact .inr ⟨rfl, hdec⟩

/-- Every write comes from the instructions that R12 to R19 name as its writers. -/
theorem effect_comesFrom {i : Instr} {s : State} {w : Write} (h : effect i s = .ok w) : w.ComesFrom i s := by
  cases i with
  | fclr => cases h; exact ⟨rfl, rfl⟩
  | push b => cases h; exact pushWrite_comesFrom b s
  | dec => exact decEffect_comesFrom h
  | fast => exact fastEffect_comesFrom h
  | cinit => cases h; exact .inl rfl
  | cupd b => cases h; exact .inr ⟨b, rfl⟩
  | cvfy e => cases h; exact ⟨e, rfl⟩
  | setm m => cases h; rfl
  | f24 | f24s | f24c | f24sc | f16 | f16s | f16c | f16sc => cases h; exact countedWrite_comesFrom rfl rfl

/-! ### What an instruction reads -/

/-- DEC reads MODE, CNT and the bytes below CNT (R22, R31). -/
theorem decEffect_congr {s s' : State} (hmode : s'.mode = s.mode) (hcnt : s'.cnt = s.cnt)
    (hread : ∀ a, a < s.cnt.toNat → s'.fb.readByte a = s.fb.readByte a) : decEffect s' = decEffect s := by
  unfold decEffect
  rw [hmode, hcnt]
  split
  · next h => rw [Memory.readBytes_congr fun k _ hk => hread k (by omega)]
  · rfl

/-- FAST reads MODE, CNT and the bytes below CNT (R110). -/
theorem fastEffect_congr {s s' : State} (hmode : s'.mode = s.mode) (hcnt : s'.cnt = s.cnt)
    (hread : ∀ a, a < s.cnt.toNat → s'.fb.readByte a = s.fb.readByte a) : fastEffect s' = fastEffect s := by
  unfold fastEffect Memory.memRead
  rw [hmode, hcnt]
  split
  · rfl
  · split
    · next h => rw [Memory.readBytes_congr fun k _ hk => hread k (by omega)]
    · rfl

/-- No instruction reads more than MODE, CNT, ACC and the bytes below CNT; PUSH puts its byte into the buffer as it
stands. -/
theorem effect_congr {i : Instr} {s s' : State} (hmode : s'.mode = s.mode) (hcnt : s'.cnt = s.cnt)
    (hacc : s'.acc = s.acc) (hread : ∀ a, a < s.cnt.toNat → s'.fb.readByte a = s.fb.readByte a)
    (hpush : (∃ b, i = .push b) → s'.fb = s.fb) : effect i s' = effect i s := by
  cases i with
  | fclr | cinit | setm => rfl
  | push b => simp only [effect, pushWrite, hcnt, hpush ⟨b, rfl⟩]
  | dec => exact decEffect_congr hmode hcnt hread
  | fast => exact fastEffect_congr hmode hcnt hread
  | cupd | cvfy => simp only [effect, hacc]
  | f24 | f24s | f24c | f24sc | f16 | f16s | f16c | f16sc => simp only [effect, countedWrite, hcnt]

/-- A change f of the state that no instruction reads, and that no write touches, commutes with the instruction. -/
theorem exec_commutes {i : Instr} {s : State} {f : State → State} (hreads : effect i (f s) = effect i s)
    (hwrites : ∀ w : Write, w.ComesFrom i s → w.apply (f s) = f (w.apply s)) :
    exec i (f s) = mapNext f (exec i s) := by
  rw [exec_eq_outcomeOf_effect, exec_eq_outcomeOf_effect, hreads]
  cases h : effect i s with
  | error e => rfl
  | ok w => exact congrArg Host.Outcome.next (hwrites w (effect_comesFrom h))

/-! ### What one clock edge does -/

theorem step_of_port_nil {s : State} (h : s.port = []) : step s = .next s := by
  simp [step, nextInput, h, PortInput.idle]

theorem step_of_reset {s : State} {p : PortInput} {rest : List PortInput} (h : s.port = p :: rest)
    (hr : p.rst = true) : step s = .next (takeReset (s.setPort rest)) := by
  simp [step, nextInput, h, hr]

theorem step_of_idle {s : State} {p : PortInput} {rest : List PortInput} (h : s.port = p :: rest)
    (hr : p.rst = false) (hv : p.cmdValid = false) : step s = .next (s.setPort rest) := by
  simp [step, nextInput, h, hr, hv]

theorem step_of_decode_ok {s : State} {p : PortInput} {rest : List PortInput} {i : Instr} (h : s.port = p :: rest)
    (hr : p.rst = false) (hv : p.cmdValid = true) (hd : decode (.command p.cmd) = .ok i) :
    step s = exec i (s.setPort rest) := by
  simp [step, nextInput, h, hr, hv, hd]

theorem step_of_decode_error {s : State} {p : PortInput} {rest : List PortInput} {r : Reject}
    (h : s.port = p :: rest) (hr : p.rst = false) (hv : p.cmdValid = true)
    (hd : decode (.command p.cmd) = .error r) : step s = raise .illegalCommand (s.setPort rest) := by
  simp [step, nextInput, h, hr, hv, hd]

/-- Everything a clock edge can do (R21, R52, R121, R135): with the input taken off the port, nothing, a reset, ERR.ILL,
or an instruction. -/
theorem step_spec (s : State) : ∃ rest,
    step s = .next (s.setPort rest) ∨ step s = .next (takeReset (s.setPort rest)) ∨
      step s = raise .illegalCommand (s.setPort rest) ∨ ∃ i, step s = exec i (s.setPort rest) := by
  cases h : s.port with
  | nil => exact ⟨[], .inl (h ▸ step_of_port_nil h)⟩
  | cons p rest =>
    refine ⟨rest, ?_⟩
    cases hr : p.rst with
    | true => exact .inr (.inl (step_of_reset h hr))
    | false =>
      cases hv : p.cmdValid with
      | false => exact .inl (step_of_idle h hr hv)
      | true =>
        cases hd : decode (.command p.cmd) with
        | error r => exact .inr (.inr (.inl (step_of_decode_error h hr hv hd)))
        | ok i => exact .inr (.inr (.inr ⟨i, step_of_decode_ok h hr hv hd⟩))

/-! ### The invariant -/

/-- The invariant is about FB and CNT alone. -/
theorem inv_congr {s t : State} (h : s.Inv) (hfb : t.fb = s.fb) (hcnt : t.cnt = s.cnt) : t.Inv :=
  ⟨hfb ▸ h.fbWf, hcnt ▸ h.cntLegal, by rw [hfb, hcnt]; exact h.pushed⟩

/-- An empty frame over a canonical buffer meets the invariant. -/
theorem inv_of_cnt_zero {s : State} (hfb : s.fb.wf) (hcnt : s.cnt = 0) : s.Inv :=
  ⟨hfb, by simp [hcnt], fun a ha => by simp [hcnt] at ha⟩

theorem toNat_add_one_of_lt {n : BitVec 3} (h : n.toNat < fbSize) : (n + 1).toNat = n.toNat + 1 := by
  have hn : n.toNat < 5 := h
  rw [BitVec.toNat_add]
  exact Nat.mod_eq_of_lt (by show n.toNat + 1 < 8; omega)

/-- PUSH below a full buffer keeps the invariant: the new byte is the one that CNT now covers as well (R68). -/
theorem inv_pushed {s : State} (b : Byte) (room : s.cnt.toNat < fbSize) (h : s.Inv) :
    (s.setFrame (s.fb.insert s.cnt.toNat b) (s.cnt + 1)).Inv := by
  refine ⟨Memory.insert_wf _ _ _ h.fbWf room, ?_, fun a ha => ?_⟩
  · rw [State.setFrame_cnt, toNat_add_one_of_lt room]; exact room
  · rw [State.setFrame_cnt, toNat_add_one_of_lt room] at ha
    rw [State.setFrame_fb]
    by_cases hat : a = s.cnt.toNat
    · subst hat; exact ⟨b, Memory.readByte_insert_same _ _ _ room⟩
    · rw [Memory.readByte_insert_other _ _ _ _ hat]
      exact h.pushed a (by omega)

/-- Every write an instruction can make keeps the invariant. -/
theorem apply_keeps_inv {i : Instr} {s : State} {w : Write} (hw : w.ComesFrom i s) (h : s.Inv) : (w.apply s).Inv := by
  cases w with
  | cnt n => exact inv_of_cnt_zero h.fbWf hw.2
  | frame m n =>
    obtain ⟨b, -, room, rfl, rfl⟩ := hw
    exact inv_pushed b room h
  | modecfg | acc | veq | data | unspecified | raised => exact inv_congr h rfl rfl

/-- Under the invariant the bytes of a complete frame can be read. -/
theorem readBytes_ok_of_inv {s : State} {n : Nat} (h : s.Inv) (hn : s.cnt.toNat = n) :
    ∃ bs, s.fb.readBytes 0 n = .ok bs :=
  Memory.readBytes_total fun k _ hk => h.pushed k (by omega)

/-- Under the invariant no instruction stops. -/
theorem exec_completes {s : State} (i : Instr) (h : s.Inv) : ∃ w, effect i s = .ok w := by
  cases i with
  | dec =>
    show ∃ w, decEffect s = .ok w
    unfold decEffect
    split
    · next hn => obtain ⟨bs, hbs⟩ := readBytes_ok_of_inv h hn; rw [hbs]; exact ⟨_, rfl⟩
    · exact ⟨_, rfl⟩
  | fast =>
    show ∃ w, fastEffect s = .ok w
    unfold fastEffect Memory.memRead
    split
    · exact ⟨_, rfl⟩
    · split
      · next hn => obtain ⟨bs, hbs⟩ := readBytes_ok_of_inv h hn; rw [hbs]; exact ⟨_, rfl⟩
      · exact ⟨_, rfl⟩
  | fclr | push | cinit | cupd | cvfy | setm => exact ⟨_, rfl⟩
  | f24 | f24s | f24c | f24sc | f16 | f16s | f16c | f16sc => exact ⟨_, rfl⟩

/-- Under the invariant every clock edge answers a next state, which meets the invariant. -/
theorem step_of_inv {s : State} (h : s.Inv) : ∃ t, step s = .next t ∧ t.Inv := by
  obtain ⟨rest, he | he | he | ⟨i, he⟩⟩ := step_spec s
  · exact ⟨_, he, inv_congr h rfl rfl⟩
  · exact ⟨_, he, inv_of_cnt_zero Memory.reset_wf rfl⟩
  · exact ⟨_, he, inv_congr h rfl rfl⟩
  · have hport : (s.setPort rest).Inv := inv_congr h rfl rfl
    obtain ⟨w, hw⟩ := exec_completes i hport
    exact ⟨_, he.trans (exec_eq_next_iff.2 ⟨w, hw, rfl⟩), apply_keeps_inv (effect_comesFrom hw) hport⟩

theorem run_succ {M : Host.Core} {s t : M.State} (k : Nat) (h : M.step s = .next t) : M.run (k + 1) s = M.run k t := by
  simp only [Host.Core.run, h]

/-- Settles O55: an edge under the invariant answers one next state, and that one meets it. -/
theorem stepKeepsInv : Obligations.StepKeepsInv := by
  unfold Obligations.StepKeepsInv
  intro s t h hstep
  obtain ⟨t', ht', hinv⟩ := step_of_inv h
  cases hstep.symm.trans ht'
  exact hinv

/-- Settles O56, by induction on the number of edges. -/
theorem runsNeverStop : Obligations.RunsNeverStop := by
  unfold Obligations.RunsNeverStop
  intro k
  induction k with
  | zero => exact fun s h => ⟨s, rfl, h⟩
  | succ k ih =>
    intro s h
    obtain ⟨u, hu, hinv⟩ := step_of_inv h
    obtain ⟨t, ht, htinv⟩ := ih u hinv
    exact ⟨t, (run_succ (M := core) k hu).trans ht, htinv⟩

/-! ### What changes and what does not -/

/-- Settles O43, by the two things PUSH can do. -/
theorem pushFrame : Obligations.PushFrame := by
  unfold Obligations.PushFrame
  intro s t b h
  change execPush b s = .next t at h
  rcases execPush_spec b s with ⟨room, he⟩ | ⟨full, he⟩ <;> cases he.symm.trans h
  · refine ⟨rfl, fun a ha => ?_, fun _ => rfl, fun hfull => absurd room hfull⟩
    exact Memory.readByte_insert_other _ _ _ _ fun hat => ha ⟨room, hat⟩
  · exact ⟨rfl, fun _ _ => rfl, fun hroom => absurd hroom full, fun _ => ⟨rfl, rfl⟩⟩

/-- What a decoding instruction can write: data, with a checksum only if the frame has one; FAST's free values outside
mode 0; or FrameLength. -/
theorem decoding_write {i : Instr} {s : State} {w : Write}
    (hi : i = .dec ∨ i = .fast ∨ ∃ mode, i.wellFormedAt (.buffer mode) = true) (hw : w.ComesFrom i s) :
    (∃ c, w = .data c ∧ (c.recomputed.isSome = true → ReadsChecksum i s)) ∨
      (w = .unspecified ∧ i = .fast ∧ s.mode ≠ 0) ∨ w = .raised .frameLength := by
  have not_port : i.source = .port → i = .dec ∨ i = .fast := fun hport => by
    simpa [Instr.wellFormedAt, hport] using hi
  cases w with
  | modecfg m => cases hw; simpa using not_port rfl
  | cnt n => obtain ⟨rfl, -⟩ := hw; simpa using not_port rfl
  | frame m n => obtain ⟨b, rfl, -⟩ := hw; simpa using not_port rfl
  | acc a => obtain rfl | ⟨b, rfl⟩ := hw <;> simpa using not_port rfl
  | veq v => obtain ⟨e, rfl⟩ := hw; simpa using not_port rfl
  | data c => exact .inl ⟨c, rfl, hw.2⟩
  | unspecified => exact .inr (.inl ⟨rfl, hw⟩)
  | raised k =>
    obtain ⟨-, ⟨b, rfl⟩, -⟩ | ⟨rfl, -⟩ := hw
    · simpa using not_port rfl
    · exact .inr (.inr rfl)

/-- Data without a recomputed checksum leaves ACC alone (R100). -/
theorem deliver_acc_of_not_recomputed {s : State} {c : ChannelData} (h : ¬ c.recomputed.isSome = true) :
    (s.deliver c).acc = s.acc := by
  rw [State.deliver_acc, Option.not_isSome_iff_eq_none.1 h]
  rfl

/-- Settles O44, by the three things a decoding instruction can write. -/
theorem decodingFrame : Obligations.DecodingFrame := by
  unfold Obligations.DecodingFrame
  intro i s t hi h
  obtain ⟨w, hw, rfl⟩ := exec_eq_next_iff.1 h
  obtain ⟨c, rfl, hsum⟩ | ⟨rfl, hfast, hmode⟩ | rfl := decoding_write hi (effect_comesFrom hw)
  · refine ⟨rfl, rfl, rfl, rfl, fun _ => rfl, .inl rfl, fun hformat hdec => ?_, fun _ => rfl⟩
    refine deliver_acc_of_not_recomputed fun hsome => ?_
    obtain ⟨hi', hen⟩ | ⟨mode, hi', hen⟩ := hsum hsome
    · exact absurd hen (by simp [hdec hi'])
    · exact absurd hen (by simp [hformat mode hi'])
  · exact ⟨rfl, rfl, rfl, rfl, fun _ => rfl, .inl rfl, fun _ _ => rfl, fun hnot => absurd ⟨hfast, hmode⟩ hnot⟩
  · exact ⟨rfl, rfl, rfl, rfl, fun _ => rfl, .inr rfl, fun _ _ => rfl, fun _ => rfl⟩

theorem Decodes.writesResults {i : Instr} {s : State} (h : Decodes i s) :
    i = .dec ∨ i = .fast ∨ ∃ mode, i.wellFormedAt (.buffer mode) = true :=
  h.imp_right (Or.imp_left And.left)

/-- Settles O45: each write touches its own registers, and comes from their writers. -/
theorem eachRegisterHasItsWriters : Obligations.EachRegisterHasItsWriters := by
  unfold Obligations.EachRegisterHasItsWriters
  intro i s t h
  obtain ⟨w, hw, rfl⟩ := exec_eq_next_iff.1 h
  have hfrom := effect_comesFrom hw
  cases w with
  | modecfg m => obtain rfl := hfrom; simp [Write.apply]
  | cnt n => simp [Write.apply, hfrom.1]
  | frame m n =>
    obtain ⟨b, rfl, -, -, rfl⟩ := hfrom
    simp [Write.apply]
  | acc a => obtain rfl | ⟨b, rfl⟩ := hfrom <;> simp [Write.apply]
  | veq v => obtain ⟨e, rfl⟩ := hfrom; simp [Write.apply]
  | unspecified => simp [Write.apply, hfrom.1]
  | data c =>
    obtain ⟨hdec, hsum⟩ := hfrom
    refine ⟨absurd rfl, absurd rfl, absurd rfl, absurd rfl, fun hacc => ?_, fun _ => hdec.writesResults, absurd rfl⟩
    exact .inr (.inr (hsum (by_contra fun hnone => hacc (deliver_acc_of_not_recomputed hnone))))
  | raised k =>
    refine ⟨absurd rfl, absurd rfl, absurd rfl, absurd rfl, absurd rfl, by simp [Write.apply], fun _ => ?_⟩
    obtain ⟨rfl, hpush, -⟩ | ⟨rfl, hdec⟩ := hfrom
    · exact .inl ⟨hpush, rfl⟩
    · exact .inr ⟨hdec, rfl⟩

/-! ### What no instruction reads -/

@[simp] theorem withSpi3w_mode (v : Bool) (s : State) : (withSpi3w v s).mode = s.mode :=
  BitVec.extractLsb'_append_eq_right

/-- Settles O46: no instruction reads SPI3W, and only SETM writes MODECFG. -/
theorem spi3wIsReadByNothing : Obligations.Spi3wIsReadByNothing := by
  unfold Obligations.Spi3wIsReadByNothing
  refine ⟨fun i s v hi => exec_commutes ?_ fun w hw => ?_, fun _ _ _ => rfl, fun s v => ?_⟩
  · exact effect_congr (withSpi3w_mode v s) rfl rfl (fun _ _ => rfl) fun _ => rfl
  · cases w with
    | modecfg m => exact absurd hw (hi m)
    | cnt | frame | acc | veq | data | unspecified | raised => rfl
  · unfold State.flen
    rw [withSpi3w_mode]

/-- Settles O47: only PUSH takes the buffer as it stands, and only PUSH writes it. -/
theorem bytesAboveCntAreNeverRead : Obligations.BytesAboveCntAreNeverRead := by
  unfold Obligations.BytesAboveCntAreNeverRead
  intro i s m hi hread
  refine exec_commutes ?_ fun w hw => ?_
  · exact effect_congr rfl rfl rfl hread fun ⟨b, hb⟩ => absurd hb (hi b)
  · cases w with
    | frame m' n => obtain ⟨b, hb, -⟩ := hw; exact absurd hb (hi b)
    | modecfg | cnt | acc | veq | data | unspecified | raised => rfl

/-- Settles O48: DEC reads MODE, CNT and FB, and under CKSUM_EN its ACC is the recomputed checksum. -/
theorem resultsDependOnNothingHidden : Obligations.ResultsDependOnNothingHidden := by
  unfold Obligations.ResultsDependOnNothingHidden
  refine ⟨fun s s' t hmodecfg hcnt hfb h hlen => ?_, fun s s' b hacc => ?_⟩
  · have hmode : s'.mode = s.mode := congrArg (·.extractLsb' 0 3) hmodecfg
    obtain ⟨w, hw, rfl⟩ := exec_eq_next_iff.1 h
    have hw' : effect .dec s' = .ok w := (decEffect_congr hmode hcnt fun _ _ => by rw [hfb]).trans hw
    obtain ⟨c, rfl, hsum⟩ := decEffect_of_count hlen hw
    refine ⟨_, exec_eq_next_iff.2 ⟨_, hw', rfl⟩, rfl, rfl, rfl, rfl, fun hen => ?_⟩
    obtain ⟨r, hr⟩ := Option.isSome_iff_exists.1 (hsum.trans hen)
    simp [Write.apply, hr]
  · exact ⟨_, _, rfl, rfl, by simp [hacc]⟩

/-- Settles O49: no instruction reads the results or VEQ; a write of data or of free values sets all four results, and
every other write keeps them. -/
theorem resultRegistersAreReadByNothing : Obligations.ResultRegistersAreReadByNothing := by
  unfold Obligations.ResultRegistersAreReadByNothing
  intro i s t sample status cksum ckerr veq h
  obtain ⟨w, hw, rfl⟩ := exec_eq_next_iff.1 h
  have hw' : effect i (withResults sample status cksum ckerr veq s) = .ok w :=
    (effect_congr rfl rfl rfl (fun _ _ => rfl) fun _ => rfl).trans hw
  refine ⟨_, exec_eq_next_iff.2 ⟨w, hw', rfl⟩, ?_⟩
  by_cases hi : ∃ e, i = .cvfy e
  · obtain ⟨e, rfl⟩ := hi
    cases hw
    exact ⟨rfl, .inr ⟨⟨rfl, rfl, rfl, rfl⟩, rfl, rfl, rfl, rfl⟩, fun _ => rfl, fun hne => absurd rfl (hne e)⟩
  · cases w with
    | veq v => exact absurd (effect_comesFrom hw) hi
    | data | unspecified =>
      exact ⟨rfl, .inl ⟨rfl, rfl, rfl, rfl⟩, fun hcvfy => absurd hcvfy hi, fun _ => ⟨rfl, rfl⟩⟩
    | modecfg | cnt | frame | acc | raised =>
      exact ⟨rfl, .inr ⟨⟨rfl, rfl, rfl, rfl⟩, rfl, rfl, rfl, rfl⟩, fun hcvfy => absurd hcvfy hi, fun _ => ⟨rfl, rfl⟩⟩

/-! ### The clock edge, the mode codes, the register operations and the outputs -/

/-- Settles O3: the edge's lemmas for a word that decodes and for one that does not. -/
theorem stepExecutesPresentedWord : Obligations.StepExecutesPresentedWord := by
  unfold Obligations.StepExecutesPresentedWord
  exact fun s p rest h hr hv =>
    ⟨fun i hd => step_of_decode_ok h hr hv hd, fun r hd => step_of_decode_error h hr hv hd⟩

/-- Settles O4: the edge's lemmas for an empty list and for `cmd_valid = 0`. -/
theorem edgeWithoutCommandChangesNothing : Obligations.EdgeWithoutCommandChangesNothing := by
  unfold Obligations.EdgeWithoutCommandChangesNothing
  exact fun s => ⟨step_of_port_nil, fun p rest h hr hv => step_of_idle h hr hv⟩

/-- Bit 3 and the three bits below it make up the nibble. -/
theorem nibble_eq_bit_append_low (x : BitVec 4) : x = BitVec.ofBool (x.getLsbD 3) ++ x.extractLsb' 0 3 := by
  revert x; decide

/-- Settles O11: the codes are computed one by one, and MODE and MODECFG are their bits side by side. -/
theorem modeCodesNameTheEightVariants : Obligations.ModeCodesNameTheEightVariants := by
  unfold Obligations.ModeCodesNameTheEightVariants
  have flags : ∀ c : ModeCode,
      c = BitVec.ofBool (res16 c) ++ BitVec.ofBool (cksumEn c) ++ BitVec.ofBool (statusEn c) := by decide
  refine ⟨by decide, by decide, fun m => by cases m <;> rfl, fun s => ⟨flags s.mode, nibble_eq_bit_append_low s.modecfg⟩⟩

/-- Settles O42: each of the five operations is one register write. -/
theorem registerOperationsFrame : Obligations.RegisterOperationsFrame := by
  unfold Obligations.RegisterOperationsFrame
  refine fun s t => ⟨?_, ?_, ?_, ?_, ?_⟩
  · rintro ⟨⟩; exact ⟨rfl, fun _ => rfl⟩
  · rintro m ⟨⟩; exact ⟨rfl, fun _ => rfl⟩
  · rintro ⟨⟩; exact ⟨rfl, fun _ => rfl⟩
  · rintro b ⟨⟩; exact ⟨rfl, fun _ => rfl⟩
  · rintro e ⟨⟩; exact ⟨rfl, fun _ => rfl⟩

/-- Settles O50: the outputs are read off the registers field by field. -/
theorem outputsShowTheRegisters : Obligations.OutputsShowTheRegisters := by
  unfold Obligations.OutputsShowTheRegisters
  exact fun s m => ⟨rfl, rfl, rfl, rfl, rfl, rfl, rfl, rfl, rfl, rfl⟩

end Sys2Proof.Proofs

/-! Proofs of the family 20_memory.md: the bytes of a big-endian read, and a decode repeated. -/

namespace Sys2Proof.Proofs

open Sys2Proof.Machine Sys2Proof.Claims

/-! ### The number that a byte sequence spells -/

theorem joinBytes_concat (bs : List Byte) (b : Byte) : joinBytes (bs ++ [b]) = joinBytes bs * 256 + b.toNat := by
  simp [joinBytes]

theorem joinBytes_lt (bs : List Byte) : joinBytes bs < 2 ^ (8 * bs.length) := by
  induction bs using List.reverseRecOn with
  | nil => exact Nat.one_pos
  | append_singleton bs b ih =>
    rw [joinBytes_concat, List.length_append, List.length_singleton, Nat.mul_add_one 8, Nat.pow_add]
    have hb := b.isLt
    omega

/-- The i-th byte of a sequence stands above the `length - 1 - i` bytes after it (R32). -/
theorem joinBytes_div_mod {bs : List Byte} {i : Nat} {b : Byte} (h : bs[i]? = some b) :
    joinBytes bs / 2 ^ (8 * (bs.length - 1 - i)) % 256 = b.toNat := by
  induction bs using List.reverseRecOn with
  | nil => cases h
  | append_singleton bs x ih =>
    have hx := x.isLt
    obtain hi | hi := Nat.lt_or_ge i bs.length
    · have above : 8 * ((bs ++ [x]).length - 1 - i) = 8 + 8 * (bs.length - 1 - i) := by
        rw [List.length_append, List.length_singleton]; omega
      have shift : joinBytes (bs ++ [x]) / 2 ^ 8 = joinBytes bs := by rw [joinBytes_concat]; omega
      rw [above, Nat.pow_add, ← Nat.div_div_eq_div_mul, shift]
      exact ih (List.getElem?_append_left hi ▸ h)
    · obtain ⟨hlen, rfl⟩ : i - bs.length = 0 ∧ x = b := by
        rw [List.getElem?_append_right hi] at h
        simpa [List.getElem?_singleton] using h
      have last : (bs ++ [x]).length - 1 - i = 0 := by
        rw [List.length_append, List.length_singleton]; omega
      rw [last, joinBytes_concat]
      omega

/-- Every byte of a big-endian value can be read off its bits (R32). -/
theorem extractLsb'_joinBytes {bs : List Byte} {n i : Nat} {b : Byte} (hn : bs.length = n) (h : bs[i]? = some b) :
    (BitVec.ofNat (8 * n) (joinBytes bs)).extractLsb' (8 * (n - 1 - i)) 8 = b := by
  subst hn
  apply BitVec.eq_of_toNat_eq
  rw [BitVec.extractLsb'_toNat, BitVec.toNat_ofNat, Nat.mod_eq_of_lt (joinBytes_lt bs), Nat.shiftRight_eq_div_pow]
  exact joinBytes_div_mod h

/-- Settles O12: the read answers the number its bytes spell, and each byte is in its place there. -/
theorem memReadIsBigEndian : Obligations.MemReadIsBigEndian := by
  unfold Obligations.MemReadIsBigEndian
  intro m a n f _ _ hread
  obtain ⟨bs, hbs⟩ : ∃ bs, m.readBytes a n = .ok bs := Memory.readBytes_total fun k hk hkn =>
    ⟨f (k - a), by simpa [Nat.add_sub_cancel' hk] using hread (k - a) (by omega)⟩
  refine ⟨BitVec.ofNat (8 * n) (joinBytes bs), by rw [Memory.memRead, hbs], fun i hi => ?_⟩
  obtain ⟨b, hget, hb⟩ := Memory.readBytes_get hbs hi
  cases hb.symm.trans (hread i hi)
  exact extractLsb'_joinBytes (Memory.readBytes_length hbs) hget

/-! ### A decode repeated -/

/-- A write carried out twice is the write carried out once, but for FAST's free values, which are drawn anew. -/
theorem apply_apply {w : Write} (h : w ≠ .unspecified) (s : State) : w.apply (w.apply s) = w.apply s := by
  cases w with
  | modecfg | cnt | frame | acc | veq => rfl
  | data c => obtain ⟨_, _, _, _, _ | _⟩ := c <;> rfl
  | raised k => simp [Write.apply, State.setErr, BitVec.or_assoc]
  | unspecified => exact absurd rfl h

/-- What DEC writes, none of it DEC reads (R22, R34): the mode, the count and the buffer stay. -/
theorem decEffect_apply {s : State} {w : Write} (h : decEffect s = .ok w) :
    w ≠ .unspecified ∧ (w.apply s).mode = s.mode ∧ decEffect (w.apply s) = .ok w := by
  obtain ⟨c, rfl, -⟩ | ⟨-, hfast, -⟩ | rfl := decoding_write (.inl rfl) (decEffect_comesFrom h)
  · exact ⟨nofun, rfl, (decEffect_congr rfl rfl fun _ _ => rfl).trans h⟩
  · cases hfast
  · exact ⟨nofun, rfl, (decEffect_congr rfl rfl fun _ _ => rfl).trans h⟩

/-- The decode of a three-byte frame in mode 0 is the sign extension of the number that `memRead` joins (R92, R101). -/
theorem frameDecode_mode_zero (p : CrcParams) (b0 b1 b2 : Byte) :
    frameDecode p 0 [b0, b1, b2] =
      some (uncheckedData (sext32 (BitVec.ofNat (8 * 3) (joinBytes [b0, b1, b2]))) 0) :=
  congrArg (fun raw24 : BitVec 24 => some (uncheckedData (sext32 raw24) 0)) (joinBytes_triple b0 b1 b2).symm

/-- In mode 0 FAST has DEC's effect (R111). -/
theorem fastEffect_eq_decEffect {s : State} (hm : s.mode = 0) : fastEffect s = decEffect s := by
  have hlen : frameLength s.mode = 3 := by rw [hm]; rfl
  rw [fastEffect, decEffect, hlen, if_neg (not_not.2 hm), hm, Memory.memRead]
  cases hr : s.fb.readBytes 0 3 with
  | error f => rfl
  | ok bs =>
    obtain ⟨b0, b1, b2, rfl⟩ := List.length_eq_three.1 (Memory.readBytes_length hr)
    simp only [Except.map, frameDecode_mode_zero]

/-- Settles O40: the second decode finds what the first one found, and writes it again. -/
theorem decIsIdempotent : Obligations.DecIsIdempotent := by
  unfold Obligations.DecIsIdempotent
  intro s t h
  obtain ⟨w, hw, rfl⟩ := exec_eq_next_iff.1 h
  obtain ⟨hfree, hmode, hagain⟩ := decEffect_apply hw
  have hsame : w.apply s = w.apply (w.apply s) := (apply_apply hfree s).symm
  refine ⟨exec_eq_next_iff.2 ⟨w, hagain, hsame⟩, fun hm => exec_eq_next_iff.2 ⟨w, ?_, hsame⟩⟩
  exact (fastEffect_eq_decEffect (hmode.trans hm)).trans hagain

end Sys2Proof.Proofs

/-! Proofs of the family 30_encoding.md: decoding and encoding undo each other, so the opcode map, the frame formats and
the script lines are read off the encoder. -/

namespace Sys2Proof.Proofs

open Sys2Proof.Machine Sys2Proof.Claims

/-! ### The fields of a command word -/

/-- Two fields side by side make up a value exactly when each is cut out of it. -/
theorem append_eq_iff {v w : Nat} {a : BitVec v} {b : BitVec w} {x : BitVec (v + w)} :
    a ++ b = x ↔ x.extractLsb' w v = a ∧ x.extractLsb' 0 w = b := by
  constructor
  · rintro rfl
    exact ⟨BitVec.extractLsb'_append_eq_left, BitVec.extractLsb'_append_eq_right⟩
  · rintro ⟨rfl, rfl⟩
    exact BitVec.extractLsb'_append_extractLsb'

/-- A word is its opcode and its operand (R45). -/
theorem commandWord_eq_iff {op : BitVec 3} {arg : Byte} {w : CmdWord} :
    commandWord op arg = w ↔ opField w = op ∧ argField w = arg :=
  append_eq_iff

@[simp] theorem commandWord_opcode (op : BitVec 3) (arg : Byte) : (commandWord op arg).extractLsb' 8 3 = op :=
  (commandWord_eq_iff.1 rfl).1

@[simp] theorem commandWord_operand (op : BitVec 3) (arg : Byte) : (commandWord op arg).extractLsb' 0 8 = arg :=
  (commandWord_eq_iff.1 rfl).2

/-- The operand byte is its two nibbles, of which SETM has only the low one (R47). -/
theorem append_eq_argField_iff {hi lo : BitVec 4} {w : CmdWord} :
    hi ++ lo = argField w ↔ w.extractLsb' 4 4 = hi ∧ w.extractLsb' 0 4 = lo := by
  have nibbles : argField w = w.extractLsb' 4 4 ++ w.extractLsb' 0 4 :=
    (BitVec.extractLsb'_append_extractLsb'_eq_extractLsb' (start₁ := 0) (len₁ := 4) rfl).symm
  rw [append_eq_iff, nibbles, BitVec.extractLsb'_append_eq_left, BitVec.extractLsb'_append_eq_right]

@[simp] theorem commandWord_highNibble (op : BitVec 3) (hi lo : BitVec 4) :
    (commandWord op (hi ++ lo)).extractLsb' 4 4 = hi :=
  (append_eq_argField_iff.1 (commandWord_operand op (hi ++ lo)).symm).1

@[simp] theorem commandWord_lowNibble (op : BitVec 3) (hi lo : BitVec 4) :
    (commandWord op (hi ++ lo)).extractLsb' 0 4 = lo :=
  (append_eq_argField_iff.1 (commandWord_operand op (hi ++ lo)).symm).2

/-! ### Decoding and encoding undo each other -/

/-- Every instruction is read back from its encoding: a command word by its opcode, a frame by joining its bytes. -/
theorem decode_encode (i : Instr) : decode (encode i) = .ok i := by
  cases i with
  | fclr | dec | fast | cinit => rfl
  | push | cupd | cvfy | setm => simp [encode, decode, decodeCommand_spec]
  | f24 | f24s | f24c | f24sc => simp [encode, decode, decodeFrame, bytesOf24, DataMode.ofCode, join_bytesOf24]
  | f16 | f16s | f16c | f16sc => simp [encode, decode, decodeFrame, bytesOf16, DataMode.ofCode, join_bytesOf16]

/-- Everything the command-word decoder can do: refuse an illegal word by name (R52), or answer the instruction that the
word encodes. -/
theorem decode_command_spec (w : CmdWord) :
    (illegalWord w = true ∧ decode (.command w) = .error (.illegalCommand w)) ∨
      (illegalWord w = false ∧ ∃ i, decode (.command w) = .ok i ∧ encode i = .command w) := by
  obtain ⟨op, arg, rfl⟩ : ∃ op arg, commandWord op arg = w := ⟨_, _, commandWord_eq_iff.2 ⟨rfl, rfl⟩⟩
  have opcodes : (op = 0 ∨ op = 2 ∨ op = 3 ∨ op = 4) ∨ (op = 1 ∨ op = 5 ∨ op = 6) ∨ op = 7 := by
    revert op; decide
  obtain bare | operand | rfl := opcodes
  · by_cases harg : arg = 0#8
    · subst harg
      obtain rfl | rfl | rfl | rfl := bare
      · exact .inr ⟨rfl, .fclr, rfl, rfl⟩
      · exact .inr ⟨rfl, .dec, rfl, rfl⟩
      · exact .inr ⟨rfl, .fast, rfl, rfl⟩
      · exact .inr ⟨rfl, .cinit, rfl, rfl⟩
    · obtain rfl | rfl | rfl | rfl := bare <;>
        exact .inl (by simp [illegalWord, opField, argField, decode, decodeCommand_spec, harg])
  · obtain rfl | rfl | rfl := operand
    · exact .inr ⟨by simp [illegalWord, opField], _, decode_encode (.push arg), rfl⟩
    · exact .inr ⟨by simp [illegalWord, opField], _, decode_encode (.cupd arg), rfl⟩
    · exact .inr ⟨by simp [illegalWord, opField], _, decode_encode (.cvfy arg), rfl⟩
  · obtain ⟨hi, lo, rfl⟩ : ∃ hi lo : BitVec 4, hi ++ lo = arg := ⟨_, _, append_eq_iff.2 ⟨rfl, rfl⟩⟩
    by_cases hhi : hi = 0#4
    · subst hhi
      exact .inr ⟨by simp [illegalWord, opField], _, decode_encode (.setm lo), rfl⟩
    · exact .inl (by simp [illegalWord, opField, decode, decodeCommand_spec, hhi])

/-- Everything the frame decoder can do: answer the instruction that the frame encodes, or refuse the byte count. -/
theorem decode_frame_spec (mode : ModeCode) (bytes : List Byte) :
    (∃ i, decode (.frame mode bytes) = .ok i ∧ encode i = .frame mode bytes) ∨
      decode (.frame mode bytes) = .error (.frameLength mode bytes.length) := by
  have code : (DataMode.ofCode mode).code = mode := modeCodesNameTheEightVariants.2.1 mode
  simp only [decode]
  unfold decodeFrame
  split
  case h_9 => exact .inr rfl
  all_goals
    next format =>
      rw [format] at code
      subst code
      exact .inl ⟨_, rfl, by simp [encode, DataMode.code]⟩

/-- The decoders and the encoder are inverse to each other (R45 to R49). -/
theorem decode_eq_ok_iff {e : Encoding} {i : Instr} : decode e = .ok i ↔ encode i = e := by
  constructor
  · intro h
    cases e with
    | command w =>
      obtain ⟨-, he⟩ | ⟨-, j, hj, he⟩ := decode_command_spec w
      · cases he.symm.trans h
      · cases hj.symm.trans h; exact he
    | frame mode bytes =>
      obtain ⟨j, hj, he⟩ | he := decode_frame_spec mode bytes
      · cases hj.symm.trans h; exact he
      · cases he.symm.trans h
  · rintro rfl
    exact decode_encode i

/-- Settles O8, by cases on the instruction. -/
theorem decodeReadsBackEveryEncoding : Obligations.DecodeReadsBackEveryEncoding := by
  unfold Obligations.DecodeReadsBackEveryEncoding
  exact decode_encode

/-- Settles O9: whatever either decoder answers encodes what it was given. -/
theorem encodeRebuildsWhatWasDecoded : Obligations.EncodeRebuildsWhatWasDecoded := by
  unfold Obligations.EncodeRebuildsWhatWasDecoded
  exact fun _ _ => decode_eq_ok_iff.1

/-! ### The words that are no operation, and the rows of the opcode map -/

/-- A word is an operation exactly when R52 does not name it. -/
theorem isSome_decodeCommand (w : CmdWord) : (decodeCommand w).toOption.isSome = !illegalWord w := by
  obtain ⟨hw, he⟩ | ⟨hw, i, hi, -⟩ := decode_command_spec w
  · rw [hw]; exact congrArg (·.toOption.isSome) he
  · rw [hw]; exact congrArg (·.toOption.isSome) hi

/-- Four opcodes have 255 illegal words each, and SETM's has 240 (R52). -/
theorem count_illegalWord : ((List.range 2048).filter fun n => illegalWord (BitVec.ofNat 11 n)).length = 1260 := by
  decide +kernel

/-- Settles O5: the decoder refuses just the words R52 names, and the edge then raises IllegalCommand. -/
theorem illegalWordsSetOnlyIll : Obligations.IllegalWordsSetOnlyIll := by
  unfold Obligations.IllegalWordsSetOnlyIll
  refine ⟨fun w => ?_, count_illegalWord, fun s w rest hw => ?_⟩
  · obtain ⟨hw, he⟩ | ⟨hw, i, hi, -⟩ := decode_command_spec w
    · simp [hw, he]
    · simp [hw, hi]
  · obtain ⟨-, he⟩ | ⟨hlegal, -⟩ := decode_command_spec w
    · exact step_of_decode_error rfl rfl rfl he
    · cases hw.symm.trans hlegal

/-- A row's mask keeps the opcode, and of the operand the bits of `m` (R46). -/
theorem masked_eq_iff {op : BitVec 3} {m p : Byte} {w : CmdWord} :
    w &&& commandWord 7 m = commandWord op p ↔ opField w = op ∧ argField w &&& m = p := by
  rw [eq_comm, commandWord_eq_iff, opField, argField, BitVec.extractLsb'_and, BitVec.extractLsb'_and,
    commandWord_opcode, commandWord_operand, show w.extractLsb' 8 3 &&& 7 = opField w from BitVec.and_allOnes]
  rfl

/-- A row without operand is one word. -/
theorem commandWord_zero_eq_iff {op : BitVec 3} {w : CmdWord} :
    commandWord op 0 = w ↔ w &&& commandWord 7 0xFF = commandWord op 0 := by
  rw [masked_eq_iff, commandWord_eq_iff, show argField w &&& 0xFF = argField w from BitVec.and_allOnes]

/-- In a row with an operand byte only the opcode is masked. -/
theorem commandWord_eq_iff_masked {op : BitVec 3} {b : Byte} {w : CmdWord} :
    commandWord op b = w ↔ w &&& commandWord 7 0 = commandWord op 0 ∧ b = argField w := by
  rw [masked_eq_iff, commandWord_eq_iff, eq_comm (a := b)]
  simp

/-- In the row of SETM the high nibble is masked too. -/
theorem commandWord_nibble_eq_iff {op : BitVec 3} {m : BitVec 4} {w : CmdWord} :
    commandWord op (0#4 ++ m) = w ↔ w &&& commandWord 7 0xF0 = commandWord op 0 ∧ m = w.extractLsb' 0 4 := by
  have high : argField w &&& 0xF0 = 0 ↔ w.extractLsb' 4 4 = 0 := by
    revert w; decide
  rw [masked_eq_iff, commandWord_eq_iff, eq_comm (b := 0#4 ++ m), append_eq_argField_iff, high,
    eq_comm (a := m), and_assoc]
  rfl

/-- A word decodes to an instruction exactly when it is its encoding. -/
theorem decode_command_eq_ok_iff {w v : CmdWord} {i : Instr} (hi : encode i = .command v) :
    decode (.command w) = .ok i ↔ v = w := by
  rw [decode_eq_ok_iff, hi, Encoding.command.injEq]

/-- As many words are operations as R52 leaves legal (R46). -/
theorem count_operations :
    ((List.range 2048).filter fun n => (decodeCommand (BitVec.ofNat 11 n)).toOption.isSome).length = 788 := by
  have total := List.length_eq_length_filter_add (l := List.range 2048) fun n => illegalWord (BitVec.ofNat 11 n)
  rw [List.length_range, count_illegalWord] at total
  simp only [isSome_decodeCommand]
  omega

/-- Settles O6: a word decodes to what it encodes, and a row's mask and match are its fields. -/
theorem opcodeMapDecidesEveryWord : Obligations.OpcodeMapDecidesEveryWord := by
  unfold Obligations.OpcodeMapDecidesEveryWord
  refine ⟨fun w => ⟨?_, fun b => ?_, ?_, ?_, ?_, fun b => ?_, fun e => ?_, fun m => ?_⟩, count_operations⟩
  · exact (decode_command_eq_ok_iff rfl).trans commandWord_zero_eq_iff
  · exact (decode_command_eq_ok_iff rfl).trans commandWord_eq_iff_masked
  · exact (decode_command_eq_ok_iff rfl).trans commandWord_zero_eq_iff
  · exact (decode_command_eq_ok_iff rfl).trans commandWord_zero_eq_iff
  · exact (decode_command_eq_ok_iff rfl).trans commandWord_zero_eq_iff
  · exact (decode_command_eq_ok_iff rfl).trans commandWord_eq_iff_masked
  · exact (decode_command_eq_ok_iff rfl).trans commandWord_eq_iff_masked
  · exact (decode_command_eq_ok_iff rfl).trans commandWord_nibble_eq_iff

/-- Settles O7: the listed words and frames are computed. -/
theorem listedCommandWordsDecode : Obligations.ListedCommandWordsDecode := by
  unfold Obligations.ListedCommandWordsDecode
  exact ⟨rfl, rfl, rfl, rfl, rfl, rfl, rfl, rfl, rfl, rfl, rfl, rfl⟩

/-! ### The fields of a frame -/

/-- Three bytes in a row make up the 24-bit field they are cut from (R32, R48). -/
theorem bytesOf24_field {w : Nat} (fw : BitVec w) (k : Nat) :
    bytesOf24 (fw.extractLsb' k 24) = [fw.extractLsb' (k + 16) 8, fw.extractLsb' (k + 8) 8, fw.extractLsb' k 8] := by
  have field : fw.extractLsb' k 24 = fw.extractLsb' (k + 16) 8 ++ fw.extractLsb' (k + 8) 8 ++ fw.extractLsb' k 8 := by
    rw [BitVec.extractLsb'_append_extractLsb'_eq_extractLsb' (start₁ := k + 8) (len₁ := 8) rfl,
      BitVec.extractLsb'_append_extractLsb'_eq_extractLsb' (start₁ := k) (len₁ := 8) rfl]
  rw [field]
  exact bytesOf24_join _ _ _

/-- Two bytes in a row make up the 16-bit field they are cut from (R32, R48). -/
theorem bytesOf16_field {w : Nat} (fw : BitVec w) (k : Nat) :
    bytesOf16 (fw.extractLsb' k 16) = [fw.extractLsb' (k + 8) 8, fw.extractLsb' k 8] := by
  have field : fw.extractLsb' k 16 = fw.extractLsb' (k + 8) 8 ++ fw.extractLsb' k 8 :=
    (BitVec.extractLsb'_append_extractLsb'_eq_extractLsb' (start₁ := k) (len₁ := 8) rfl).symm
  rw [field]
  exact bytesOf16_join _ _

/-- A frame has the length of its mode (R48, R65). -/
theorem length_of_encode_eq_frame {i : Instr} {mode : ModeCode} {bytes : List Byte}
    (h : encode i = .frame mode bytes) : bytes.length = frameLength mode := by
  cases i with
  | fclr | push | dec | fast | cinit | cupd | cvfy | setm => cases h
  | f24 | f24s | f24c | f24sc | f16 | f16s | f16c | f16sc => cases h; rfl

/-- Settles O10: the bytes of FW are those that encode its fields. -/
theorem frameFieldsStandWhereTabled : Obligations.FrameFieldsStandWhereTabled := by
  unfold Obligations.FrameFieldsStandWhereTabled
  refine ⟨fun fw => ?_, fun fw => ?_, fun fw => ?_, fun fw => ?_, fun fw => ?_, fun fw => ?_, fun fw => ?_,
    fun fw => ?_, fun mode bytes hlen => ?_⟩
  · exact decode_encode (.f24 fw)
  · exact decode_eq_ok_iff.2 (by rw [encode, bytesOf24_field]; rfl)
  · exact decode_eq_ok_iff.2 (by rw [encode, bytesOf24_field]; rfl)
  · exact decode_eq_ok_iff.2 (by rw [encode, bytesOf24_field]; rfl)
  · exact decode_encode (.f16 fw)
  · exact decode_eq_ok_iff.2 (by rw [encode, bytesOf16_field]; rfl)
  · exact decode_eq_ok_iff.2 (by rw [encode, bytesOf16_field]; rfl)
  · exact decode_eq_ok_iff.2 (by rw [encode, bytesOf16_field]; rfl)
  · obtain ⟨i, -, hi⟩ | he := decode_frame_spec mode bytes
    · exact absurd (length_of_encode_eq_frame hi) hlen
    · exact he

/-! ### The words that a script line issues -/

/-- What an instruction issues is decoded as that instruction. -/
theorem decode_of_mem_issue {i : Instr} {p : PortInput} (h : p ∈ issue i) : decode (.command p.cmd) = .ok i := by
  unfold issue at h
  split at h
  · next hw =>
    obtain rfl := List.mem_singleton.1 h
    exact decode_eq_ok_iff.2 hw
  · cases h

theorem decode_of_mem_issueEach {op : Byte → Instr} {bs : List Nat} {p : PortInput} (h : p ∈ issueEach op bs) :
    ∃ i, decode (.command p.cmd) = .ok i := by
  obtain ⟨n, -, hp⟩ := List.mem_flatMap.1 h
  exact ⟨_, decode_of_mem_issue hp⟩

/-- Settles O59: but for WORD and RESET, a line is made of issued instructions. -/
theorem scriptsSpellNoIllegalWord : Obligations.ScriptsSpellNoIllegalWord := by
  unfold Obligations.ScriptsSpellNoIllegalWord
  intro l p _ hword hp hvalid
  cases l with
  | fclr | dec | fast | cinit | push | cupd | cvfy | setm | setmode =>
    rw [expandLine] at hp
    exact ⟨_, decode_of_mem_issue hp⟩
  | frame bs | crc bs =>
    obtain hp | hp := List.mem_append.1 hp
    · exact ⟨_, decode_of_mem_issue hp⟩
    · exact decode_of_mem_issueEach hp
  | verify e bs =>
    obtain hp | hp := List.mem_append.1 hp
    · obtain hp | hp := List.mem_append.1 hp
      · exact ⟨_, decode_of_mem_issue hp⟩
      · exact decode_of_mem_issueEach hp
    · exact ⟨_, decode_of_mem_issue hp⟩
  | reset =>
    obtain rfl := List.mem_singleton.1 hp
    cases hvalid
  | word w => exact absurd rfl (hword w)

/-- A row's match with the operand in its low bits is the word of the two fields (R45, R46). -/
theorem match_or_operand (op : BitVec 3) (arg : Byte) : commandWord op 0 ||| arg.setWidth 11 = commandWord op arg := by
  have operand : arg.setWidth 11 = commandWord 0 arg := BitVec.setWidth_eq_append (by decide)
  rw [operand]
  exact BitVec.or_append.trans (congrArg₂ commandWord BitVec.or_zero BitVec.zero_or)

/-- An operation issues one word, its row's match with the operand byte. -/
theorem issue_eq_wordInput {op : BitVec 3} {i : Instr} {n : Nat}
    (hi : encode i = .command (commandWord op (BitVec.ofNat 8 n))) : issue i = [wordInput (commandWord op 0) n] := by
  rw [issue, hi, wordInput, match_or_operand]
  rfl

theorem issueEach_eq_map_wordInput {op : BitVec 3} {f : Byte → Instr} (bs : List Nat)
    (hf : ∀ b, encode (f b) = .command (commandWord op b)) :
    issueEach f bs = bs.map (wordInput (commandWord op 0)) := by
  rw [List.map_eq_flatMap]
  exact congrArg (bs.flatMap ·) (funext fun n => issue_eq_wordInput (hf _))

/-- Settles O57: the lines of issued instructions by their words, SETMODE mode by mode. -/
theorem pseudoOperationsExpand : Obligations.PseudoOperationsExpand := by
  unfold Obligations.PseudoOperationsExpand
  have crc (bs : List Nat) : expandLine (.crc bs) = wordInput 0x400 0 :: bs.map (wordInput 0x500) :=
    congrArg₂ (· ++ ·) (issue_eq_wordInput (op := 4) (i := .cinit) (n := 0) rfl)
      (issueEach_eq_map_wordInput (op := 5) (f := .cupd) bs fun _ => rfl)
  refine ⟨fun bs => ?_, crc, fun e bs => ?_, fun m => ?_, fun m => ?_, rfl, fun _ => rfl⟩
  · exact congrArg₂ (· ++ ·) (issue_eq_wordInput (op := 0) (i := .fclr) (n := 0) rfl)
      (issueEach_eq_map_wordInput (op := 1) (f := .push) bs fun _ => rfl)
  · exact congrArg₂ (· ++ ·) (crc bs) (issue_eq_wordInput (op := 6) (i := .cvfy (BitVec.ofNat 8 e)) rfl)
  · cases m with
    | m24 | m24s | m24c | m24sc | m16 | m16s | m16c | m16sc => rfl
  · cases m with
    | m24 | m24s | m24c | m24sc | m16 | m16s | m16c | m16sc => rfl

/-! ### Running what a line issues -/

/-- Presented with the inputs `ps`, whatever is to come after them, the block goes from s to t. -/
def RunsTo (ps : List PortInput) (s t : State) : Prop :=
  ∀ rest, runSteps ps.length (s.setPort (ps ++ rest)) = .next (t.setPort rest)

theorem run_add {M : Host.Core} {j k : Nat} {s t : M.State} (h : M.run j s = .next t) :
    M.run (j + k) s = M.run k t := by
  induction j generalizing s with
  | zero => cases h; rw [Nat.zero_add]
  | succ j ih =>
    rw [Host.Core.run] at h
    split at h
    · next u hu => rw [Nat.add_right_comm, run_succ _ hu, ih h]
    · cases h
    · cases h

theorem RunsTo.append {ps qs : List PortInput} {s t u : State} (hp : RunsTo ps s t) (hq : RunsTo qs t u) :
    RunsTo (ps ++ qs) s u := by
  intro rest
  rw [List.length_append, List.append_assoc]
  exact (run_add (hp _)).trans (hq rest)

/-- No instruction reads or writes what the host will present. -/
theorem exec_setPort {i : Instr} {s t : State} (h : exec i s = .next t) (rest : List PortInput) :
    exec i (s.setPort rest) = .next (t.setPort rest) := by
  have hreads : effect i (s.setPort rest) = effect i s :=
    effect_congr rfl rfl rfl (fun _ _ => rfl) fun _ => rfl
  have hwrites (w : Write) : w.apply (s.setPort rest) = (w.apply s).setPort rest := by
    cases w with
    | modecfg | cnt | frame | acc | veq | data | unspecified | raised => rfl
  exact (exec_commutes (f := (·.setPort rest)) hreads fun w _ => hwrites w).trans (congrArg (mapNext _) h)

theorem runsTo_issue {i : Instr} {s t : State} {w : CmdWord} (hi : encode i = .command w) (h : exec i s = .next t) :
    RunsTo (issue i) s t := by
  intro rest
  rw [issue, hi]
  have hstep := step_of_decode_ok (s := s.setPort ([PortInput.command w] ++ rest)) rfl rfl rfl (decode_eq_ok_iff.2 hi)
  exact run_succ (M := core) 0 (hstep.trans (exec_setPort h rest))

/-- The CUPDs of a line fold its bytes into ACC (R85, R87). -/
theorem runsTo_cupds (bs : List Nat) (s : State) :
    RunsTo (issueEach .cupd bs) s (s.setAcc ((bs.map (BitVec.ofNat 8)).foldl (crcUpdate Config.crc) s.acc)) := by
  induction bs generalizing s with
  | nil => exact fun _ => rfl
  | cons n bs ih => exact (runsTo_issue (i := .cupd (BitVec.ofNat 8 n)) rfl rfl).append (ih _)

/-- The CRC line computes the checksum in ACC, and writes nothing else (R56, R87). -/
theorem runsTo_crc (bs : List Nat) (s : State) :
    RunsTo (expandLine (.crc bs)) s (s.setAcc (crcCompute Config.crc (bs.map (BitVec.ofNat 8)))) :=
  (runsTo_issue (i := .cinit) rfl rfl).append (runsTo_cupds bs _)

/-- The VERIFY line is the CRC line and a CVFY (R56). -/
theorem runsTo_verify (e : Nat) (bs : List Nat) (s : State) :
    RunsTo (expandLine (.verify e bs)) s
      ((s.setAcc (crcCompute Config.crc (bs.map (BitVec.ofNat 8)))).setVeq
        (crcVerify Config.crc (bs.map (BitVec.ofNat 8)) (BitVec.ofNat 8 e))) :=
  (runsTo_crc bs s).append (runsTo_issue (i := .cvfy (BitVec.ofNat 8 e)) rfl rfl)

/-- A line presented alone is run to its end. -/
theorem RunsTo.alone {ps : List PortInput} {s t : State} (h : RunsTo ps s t) :
    runSteps ps.length { s with port := ps } = .next (t.setPort []) := by
  rw [← h [], List.append_nil]
  rfl

/-- Settles O58: both lines, run from s, end in the states of their lemmas. -/
theorem crcAndVerifyLinesDeliver : Obligations.CrcAndVerifyLinesDeliver := by
  unfold Obligations.CrcAndVerifyLinesDeliver
  exact fun s e bs => ⟨⟨_, (runsTo_crc bs s).alone, rfl⟩, ⟨_, (runsTo_verify e bs s).alone, rfl⟩⟩

end Sys2Proof.Proofs

/-! Proofs of the family 40_mode_and_frame_input.md: the frame-length law, the words of SETM, FCLR and PUSH, and the
frame that PUSHes after FCLR build up. -/

namespace Sys2Proof.Proofs

open Sys2Proof.Machine Sys2Proof.Claims

/-! ### The frame-length law -/

/-- Settles O13: the length is 2 to 5, so the three bits of `flen` hold it. -/
theorem frameLengthLaw : Obligations.FrameLengthLaw := by
  unfold Obligations.FrameLengthLaw
  refine ⟨fun mode => ⟨rfl, frameLength_bounds mode⟩, rfl, fun s => ?_⟩
  have fits : frameLength s.mode < 2 ^ 3 := (frameLength_bounds s.mode).2.trans_lt (by decide)
  exact (BitVec.toNat_ofNat _ _).trans (Nat.mod_eq_of_lt fits)

/-! ### The words of an opcode -/

/-- A word that encodes an instruction is executed as that instruction. -/
theorem step_presenting_of_encode {i : Instr} {w : CmdWord} (hi : encode i = .command w) (s : State)
    (rest : List PortInput) : step (presenting s w rest) = exec i (s.setPort rest) :=
  step_of_decode_ok rfl rfl rfl (decode_eq_ok_iff.2 hi)

/-- Settles O14: with a zero high nibble the word encodes SETM of the low one, and otherwise R52 names it. -/
theorem setmLoadsModeConfiguration : Obligations.SetmLoadsModeConfiguration := by
  unfold Obligations.SetmLoadsModeConfiguration
  refine ⟨fun _ _ => rfl, fun s w rest hop => ?_⟩
  split
  · next high =>
    have word : commandWord 7 (0#4 ++ w.extractLsb' 0 4) = w :=
      commandWord_eq_iff.2 ⟨hop, (append_eq_argField_iff.2 ⟨high, rfl⟩).symm⟩
    exact step_presenting_of_encode (i := .setm (w.extractLsb' 0 4)) (congrArg Encoding.command word) s rest
  · next high => exact illegalWordsSetOnlyIll.2.2 s w rest (by simpa [illegalWord, hop] using high)

/-- Settles O15: with a zero operand the word encodes FCLR, and otherwise R52 names it. -/
theorem fclrEmptiesTheFrame : Obligations.FclrEmptiesTheFrame := by
  unfold Obligations.FclrEmptiesTheFrame
  refine ⟨fun _ => rfl, fun s w rest hop => ?_⟩
  split
  · next harg =>
    have word : commandWord 0 0 = w := commandWord_eq_iff.2 ⟨hop, harg⟩
    exact step_presenting_of_encode (i := .fclr) (congrArg Encoding.command word) s rest
  · next harg => exact illegalWordsSetOnlyIll.2.2 s w rest (by simpa [illegalWord, hop] using harg)

/-- Settles O16: the two things PUSH can do, and every word of its opcode encodes one. -/
theorem pushAppendsOneByte : Obligations.PushAppendsOneByte := by
  unfold Obligations.PushAppendsOneByte
  refine ⟨fun s b hcnt => ?_, fun s b hcnt => ?_, fun s w rest hop => ?_⟩
  · have room : s.cnt.toNat < fbSize := Nat.lt_succ_of_le hcnt
    exact ⟨_, exec_eq_next_iff.2 ⟨_, rfl, by rw [pushWrite, if_pos room]; rfl⟩,
      Memory.readByte_insert_same _ _ _ room, fun a ha => Memory.readByte_insert_other _ _ _ _ ha⟩
  · have full : ¬ s.cnt.toNat < fbSize := by rw [hcnt]; decide
    exact exec_eq_next_iff.2 ⟨_, rfl, by rw [pushWrite, if_neg full]; rfl⟩
  · have word : commandWord 1 (argField w) = w := commandWord_eq_iff.2 ⟨hop, rfl⟩
    exact step_presenting_of_encode (i := .push (argField w)) (congrArg Encoding.command word) s rest

/-! ### The frame that is being built up -/

/-- The bytes `bs` were pushed since FCLR, and the bytes behind them read as in the buffer `m` (R69). -/
structure FrameHolds (m : Memory) (bs : List Byte) (s : State) : Prop where
  count : s.cnt.toNat = bs.length
  pushed : ∀ i b, bs[i]? = some b → s.fb.readByte i = .ok b
  behind : ∀ a, bs.length ≤ a → s.fb.readByte a = m.readByte a

section
variable {m : Memory} {bs : List Byte} {s t : State}

/-- The frame is about FB and CNT alone. -/
theorem FrameHolds.congr (h : FrameHolds m bs s) (hfb : t.fb = s.fb) (hcnt : t.cnt = s.cnt) : FrameHolds m bs t :=
  ⟨hcnt ▸ h.count, hfb ▸ h.pushed, hfb ▸ h.behind⟩

/-- A PUSH below a full buffer appends its byte to the frame (R68). -/
theorem FrameHolds.push (h : FrameHolds m bs s) (b : Byte) (room : bs.length < fbSize) :
    FrameHolds m (bs ++ [b]) (s.setFrame (s.fb.insert bs.length b) (s.cnt + 1)) where
  count := by
    rw [State.setFrame_cnt, toNat_add_one_of_lt (h.count ▸ room), h.count, List.length_append, List.length_singleton]
  pushed i c hc := by
    rw [State.setFrame_fb]
    by_cases hi : i = bs.length
    · subst hi
      rw [List.getElem?_concat_length, Option.some.injEq] at hc
      rw [Memory.readByte_insert_same _ _ _ room, hc]
    · rw [Memory.readByte_insert_other _ _ _ _ hi]
      have inside : i < bs.length := by
        have := (List.getElem?_eq_some_iff.1 hc).1
        rw [List.length_append, List.length_singleton] at this
        omega
      exact h.pushed i c (by rwa [List.getElem?_append_left inside] at hc)
  behind a ha := by
    rw [List.length_append, List.length_singleton] at ha
    rw [State.setFrame_fb, Memory.readByte_insert_other _ _ _ _ (by omega)]
    exact h.behind a (by omega)

/-- An instruction stops only where the bytes below CNT cannot all be read (R100, R110). -/
theorem readBytes_of_effect_error {i : Instr} {f : Fault} (h : effect i s = .error f) :
    s.fb.readBytes 0 s.cnt.toNat = .error f := by
  cases i with
  | dec =>
    change decEffect s = .error f at h
    unfold decEffect at h
    split at h
    · next hn =>
      rw [hn]
      cases hr : s.fb.readBytes 0 (frameLength s.mode) with
      | error e => rw [hr] at h; cases h; rfl
      | ok bytes => rw [hr] at h; cases h
    · cases h
  | fast =>
    change fastEffect s = .error f at h
    unfold fastEffect at h
    split at h
    · cases h
    · split at h
      · next hn =>
        rw [hn]
        obtain ⟨bytes, -, hr⟩ | ⟨e, he, hr⟩ := Memory.memRead_spec s.fb 0 3 <;> rw [hr] at h <;> cases h
        exact he
      · cases h
  | fclr | push | cinit | cupd | cvfy | setm => cases h
  | f24 | f24s | f24c | f24sc | f16 | f16s | f16c | f16sc => cases h

/-- Every byte of the frame can be read, so no instruction stops on it. -/
theorem FrameHolds.effect_completes (h : FrameHolds m bs s) (i : Instr) : ∃ w, effect i s = .ok w := by
  cases he : effect i s with
  | ok w => exact ⟨w, rfl⟩
  | error f =>
    obtain ⟨bytes, hread⟩ := Memory.readBytes_total (m := s.fb) (a := 0) (n := s.cnt.toNat) fun k _ hk =>
      ⟨bs[k]'(by have := h.count; omega), h.pushed k _ (List.getElem?_eq_getElem _)⟩
    cases hread.symm.trans (readBytes_of_effect_error he)

/-- But for FCLR and PUSH, an instruction completes and leaves the frame and what the host will present. -/
theorem FrameHolds.exec_keeps (h : FrameHolds m bs s) {i : Instr} (hclr : i ≠ .fclr) (hpush : ∀ b, i ≠ .push b) :
    ∃ t, exec i s = .next t ∧ t.port = s.port ∧ FrameHolds m bs t := by
  obtain ⟨w, hw⟩ := h.effect_completes i
  refine ⟨w.apply s, exec_eq_next_iff.2 ⟨w, hw, rfl⟩, ?_⟩
  cases w with
  | cnt n => exact absurd (effect_comesFrom hw).1 hclr
  | frame m' n => obtain ⟨b, hb, -⟩ := effect_comesFrom hw; exact absurd hb (hpush b)
  | modecfg | acc | veq | data | unspecified | raised => exact ⟨rfl, h.congr rfl rfl⟩

/-- PUSH below a full buffer completes, appends its byte, and leaves what the host will present. -/
theorem FrameHolds.exec_push (h : FrameHolds m bs s) (b : Byte) (room : bs.length < fbSize) :
    ∃ t, exec (.push b) s = .next t ∧ t.port = s.port ∧ FrameHolds m (bs ++ [b]) t := by
  refine ⟨_, exec_eq_next_iff.2 ⟨_, rfl, rfl⟩, ?_⟩
  rw [pushWrite, h.count, if_pos room]
  exact ⟨rfl, h.push b room⟩

/-! ### The edges that keep the frame -/

/-- An edge without FCLR and reset completes; the frame then holds what it held before and the byte of a PUSH, which the
inputs to come no longer carry. -/
theorem FrameHolds.step_keeps {p : PortInput} {rest : List PortInput} (h : FrameHolds m bs s)
    (hport : s.port = p :: rest) (hp : keepsFrame p) (hfit : (bs ++ pushedBytes (p :: rest)).length ≤ fbSize) :
    ∃ t bs', step s = .next t ∧ t.port = rest ∧ FrameHolds m bs' t ∧
      bs ++ pushedBytes (p :: rest) = bs' ++ pushedBytes rest := by
  obtain ⟨hrst, hclr⟩ := hp
  have held : FrameHolds m bs (s.setPort rest) := h.congr rfl rfl
  cases hv : p.cmdValid with
  | false => exact ⟨_, bs, step_of_idle hport hrst hv, rfl, held, by simp [pushedBytes, hv]⟩
  | true =>
    cases hd : decode (.command p.cmd) with
    | error r =>
      exact ⟨_, bs, step_of_decode_error hport hrst hv hd, rfl, held.congr rfl rfl, by simp [pushedBytes, hd]⟩
    | ok i =>
      rw [step_of_decode_ok hport hrst hv hd]
      by_cases hpush : ∃ b, i = .push b
      · obtain ⟨b, rfl⟩ := hpush
        have hbytes : pushedBytes (p :: rest) = b :: pushedBytes rest := by simp [pushedBytes, hrst, hv, hd]
        have room : bs.length < fbSize := by
          rw [hbytes, List.length_append, List.length_cons] at hfit
          omega
        obtain ⟨t, ht, htport, hframe⟩ := held.exec_push b room
        exact ⟨t, bs ++ [b], ht, htport, hframe, by rw [hbytes, List.append_cons]⟩
      · have quiet : ∀ b, i ≠ .push b := fun b hb => hpush ⟨b, hb⟩
        obtain ⟨t, ht, htport, hframe⟩ := held.exec_keeps (fun hi => hclr hv (hi ▸ hd)) quiet
        exact ⟨t, bs, ht, htport, hframe, by simp [pushedBytes, hd, quiet]⟩

/-- A run of such edges completes and appends the bytes pushed, as long as they fit the buffer; by induction on the
inputs. -/
theorem FrameHolds.run {ins : List PortInput} (h : FrameHolds m bs s) (hport : s.port = ins)
    (hins : ∀ p ∈ ins, keepsFrame p) (hfit : (bs ++ pushedBytes ins).length ≤ fbSize) :
    ∃ t, runSteps ins.length s = .next t ∧ FrameHolds m (bs ++ pushedBytes ins) t := by
  induction ins generalizing bs s with
  | nil => exact ⟨s, rfl, (List.append_nil bs).symm ▸ h⟩
  | cons p rest ih =>
    obtain ⟨hp, hrest⟩ := List.forall_mem_cons.1 hins
    obtain ⟨u, bs', hu, huport, hheld, hbytes⟩ := h.step_keeps hport hp hfit
    rw [hbytes] at hfit ⊢
    obtain ⟨t, ht, hframe⟩ := ih hheld huport hrest hfit
    exact ⟨t, (run_succ (M := core) rest.length hu).trans ht, hframe⟩

end

/-- Settles O17: FCLR leaves the empty frame, and every later edge keeps it or appends its byte. -/
theorem pushesAfterFclrStandInOrder : Obligations.PushesAfterFclrStandInOrder := by
  unfold Obligations.PushesAfterFclrStandInOrder
  intro s ins hport hins hfit
  have hclr : step s = .next ((s.setPort ins).setCnt 0) :=
    step_of_decode_ok hport rfl rfl (decode_encode .fclr)
  have empty : FrameHolds s.fb [] ((s.setPort ins).setCnt 0) := ⟨rfl, fun _ _ h => by simp at h, fun _ _ => rfl⟩
  obtain ⟨t, ht, hheld⟩ := empty.run rfl hins hfit
  exact ⟨t, (run_succ (M := core) ins.length hclr).trans ht, hheld.count, hheld.pushed, hheld.behind⟩

end Sys2Proof.Proofs

/-! Proofs of the family 41_checksum_engine.md: the one-bit steps and their linearity, single-bit errors by way of the
polynomials that bytes stand for, and the words of CINIT, CUPD and CVFY. -/

namespace Sys2Proof.Proofs

open Sys2Proof.Machine Sys2Proof.Claims

/-! ### The one-bit steps -/

theorem getLsbD_rev8 (p : Byte) {i : Nat} (hi : i < 8) : (rev8 p).getLsbD i = p.getLsbD (7 - i) := by
  rw [rev8, BitVec.getLsbD_reverse, BitVec.getMsbD_eq_getLsbD, decide_eq_true hi, Bool.true_and]

@[simp] theorem rev8_rev8 (p : Byte) : rev8 (rev8 p) = p := BitVec.reverse_reverse_eq

theorem rev8_xor (a b : Byte) : rev8 (a ^^^ b) = rev8 a ^^^ rev8 b :=
  BitVec.eq_of_getLsbD_eq fun i hi => by simp only [BitVec.getLsbD_xor, getLsbD_rev8, hi]

/-- A bit of the step is the bit below it, and the polynomial's where bit 7 is shifted out (R77). -/
theorem getLsbD_stepMsb (poly a : Byte) {i : Nat} (hi : i < 8) :
    (stepMsb poly a).getLsbD i =
      ((decide (1 ≤ i) && a.getLsbD (i - 1)) ^^ (a.getLsbD 7 && poly.getLsbD i)) := by
  have shifted : (a <<< 1).getLsbD i = (decide (1 ≤ i) && a.getLsbD (i - 1)) := by
    rw [BitVec.getLsbD_shiftLeft, decide_eq_true hi, Bool.true_and, ← decide_not]
    simp only [Nat.not_lt]
  unfold stepMsb
  split
  · next h => rw [BitVec.getLsbD_xor, shifted, h, Bool.true_and]
  · next h => rw [shifted, eq_false_of_ne_true h, Bool.false_and, Bool.xor_false]

/-- A bit of the step is the bit above it, and the reversed polynomial's where bit 0 is shifted out (R77). -/
theorem getLsbD_stepLsb (poly a : Byte) {i : Nat} (hi : i < 8) :
    (stepLsb poly a).getLsbD i =
      ((decide (i ≤ 6) && a.getLsbD (i + 1)) ^^ (a.getLsbD 0 && poly.getLsbD (7 - i))) := by
  have shifted : (a >>> 1).getLsbD i = (decide (i ≤ 6) && a.getLsbD (i + 1)) := by
    rw [BitVec.getLsbD_ushiftRight, Nat.add_comm]
    by_cases h : i ≤ 6
    · simp [h]
    · simp [h, BitVec.getLsbD_of_ge a (i + 1) (by omega)]
  unfold stepLsb
  split
  · next h => rw [BitVec.getLsbD_xor, shifted, getLsbD_rev8 poly hi, h, Bool.true_and]
  · next h => rw [shifted, eq_false_of_ne_true h, Bool.false_and, Bool.xor_false]

/-- The two bit orders are mirror images of each other. -/
theorem stepLsb_rev8 (poly a : Byte) : stepLsb poly (rev8 a) = rev8 (stepMsb poly a) := by
  refine BitVec.eq_of_getLsbD_eq fun i hi => ?_
  rw [getLsbD_stepLsb _ _ hi, getLsbD_rev8 a (Nat.zero_lt_succ 7), getLsbD_rev8 _ hi, getLsbD_stepMsb _ _ (by omega)]
  congr 1
  by_cases h : i ≤ 6
  · rw [getLsbD_rev8 a (by omega), decide_eq_true h, decide_eq_true (by omega : 1 ≤ 7 - i), Nat.sub_sub]
  · rw [decide_eq_false h, decide_eq_false (by omega : ¬ 1 ≤ 7 - i), Bool.false_and, Bool.false_and]

/-- Settles O18: the bits of the steps, and the update as it is defined. -/
theorem crcStepsBitByBit : Obligations.CrcStepsBitByBit := by
  unfold Obligations.CrcStepsBitByBit
  refine ⟨fun poly a => ⟨fun i => getLsbD_rev8 poly, fun i => getLsbD_stepMsb poly a,
    fun i => getLsbD_stepLsb poly a, stepLsb_rev8 poly a⟩, fun p acc b => ?_⟩
  unfold crcUpdate crcStep
  cases p.msbFirst <;> rfl

/-! ### Linearity -/

theorem stepMsb_xor (poly a b : Byte) : stepMsb poly (a ^^^ b) = stepMsb poly a ^^^ stepMsb poly b :=
  BitVec.eq_of_getLsbD_eq fun i hi => by
    simp only [BitVec.getLsbD_xor, getLsbD_stepMsb, hi, Bool.and_xor_distrib_left, Bool.and_xor_distrib_right,
      Bool.xor_assoc, Bool.xor_left_comm]

theorem stepLsb_eq_rev8 (poly a : Byte) : stepLsb poly a = rev8 (stepMsb poly (rev8 a)) := by
  rw [← stepLsb_rev8, rev8_rev8]

/-- The one-bit step is linear in either bit order (R78, R83). -/
theorem crcStep_xor (p : CrcParams) (a b : Byte) : crcStep p (a ^^^ b) = crcStep p a ^^^ crcStep p b := by
  unfold crcStep
  split
  · exact stepMsb_xor _ a b
  · simp only [stepLsb_eq_rev8, rev8_xor, stepMsb_xor]

theorem iterate_crcStep_xor (p : CrcParams) (n : Nat) (a b : Byte) :
    (crcStep p)^[n] (a ^^^ b) = (crcStep p)^[n] a ^^^ (crcStep p)^[n] b :=
  Function.Semiconj₂.iterate (f := crcStep p) (crcStep_xor p) n a b

/-- Settles O19: the update is eight linear steps from the XOR of its operands. -/
theorem crcUpdateIsLinear : Obligations.CrcUpdateIsLinear := by
  unfold Obligations.CrcUpdateIsLinear
  refine fun p a a' b b' => ⟨by simp [crcUpdate], ?_⟩
  have regroup : (a ^^^ a') ^^^ (b ^^^ b') = (a ^^^ b) ^^^ (a' ^^^ b') := by ac_rfl
  unfold crcUpdate
  rw [regroup, iterate_crcStep_xor]

/-! ### An error in one byte -/

/-- An error in the accumulator comes out of the update eight steps later. -/
theorem crcUpdate_xor_left (p : CrcParams) (acc d b : Byte) :
    crcUpdate p (acc ^^^ d) b = crcUpdate p acc b ^^^ (crcStep p)^[8] d := by
  simpa [crcUpdate] using (crcUpdateIsLinear p acc d b 0).2

/-- An error in a byte is an error in the accumulator that takes the byte in. -/
theorem crcUpdate_xor_right (p : CrcParams) (acc b d : Byte) :
    crcUpdate p acc (b ^^^ d) = crcUpdate p (acc ^^^ d) b := by
  have regroup : acc ^^^ (b ^^^ d) = (acc ^^^ d) ^^^ b := by ac_rfl
  unfold crcUpdate
  rw [regroup]

theorem foldl_crcUpdate_xor (p : CrcParams) (acc d : Byte) (bs : List Byte) :
    bs.foldl (crcUpdate p) (acc ^^^ d) = bs.foldl (crcUpdate p) acc ^^^ (crcStep p)^[8 * bs.length] d := by
  induction bs generalizing acc d with
  | nil => rfl
  | cons b bs ih =>
    rw [List.foldl_cons, crcUpdate_xor_left, ih, ← Function.iterate_add_apply]
    rfl

/-- An error in byte i comes out of the checksum eight steps later for each byte from i on (R82). -/
theorem foldl_crcUpdate_set (p : CrcParams) {acc b : Byte} (d : Byte) {bs : List Byte} {i : Nat} (h : bs[i]? = some b) :
    (bs.set i (b ^^^ d)).foldl (crcUpdate p) acc =
      bs.foldl (crcUpdate p) acc ^^^ (crcStep p)^[8 * (bs.length - i)] d := by
  induction bs generalizing acc i with
  | nil => cases h
  | cons x bs ih =>
    cases i with
    | zero =>
      obtain rfl : x = b := by simpa using h
      rw [List.set_cons_zero, List.foldl_cons, crcUpdate_xor_right]
      exact foldl_crcUpdate_xor p acc d (x :: bs)
    | succ i =>
      rw [List.set_cons_succ, List.foldl_cons, ih h, List.foldl_cons, List.length_cons, Nat.add_sub_add_right]

/-! ### Bytes as polynomials over GF(2)

In normal form bit i of a byte is the coefficient of x^i (R5), and `step_msb` multiplies by x modulo the generator. -/

section
open Polynomial

/-- The polynomial that a byte stands for (R5). -/
noncomputable def bytePoly (a : Byte) : (ZMod 2)[X] :=
  ∑ i ∈ Finset.range 8, monomial i (if a.getLsbD i then 1 else 0)

/-- The generator x^8 + CRC_POLY (R5). -/
noncomputable def generator (poly : Byte) : (ZMod 2)[X] := X ^ 8 + bytePoly poly

theorem coeff_bytePoly (a : Byte) (i : Nat) : (bytePoly a).coeff i = if a.getLsbD i then 1 else 0 := by
  by_cases hi : i < 8
  · simp [bytePoly, coeff_monomial, hi]
  · simp [bytePoly, coeff_monomial, hi, BitVec.getLsbD_of_ge a i (by omega)]

theorem bytePoly_eq_zero_iff {a : Byte} : bytePoly a = 0 ↔ a = 0 := by
  constructor
  · intro h
    refine BitVec.eq_of_getLsbD_eq fun i _ => ?_
    simpa [coeff_bytePoly] using congrArg (coeff · i) h
  · rintro rfl
    simp [bytePoly]

theorem bytePoly_bit {j : Nat} (hj : j < 8) : bytePoly (1#8 <<< j) = X ^ j := by
  ext i
  rw [coeff_bytePoly, coeff_X_pow, ← BitVec.twoPow_eq, BitVec.getLsbD_twoPow]
  simp [hj, eq_comm]

theorem degree_bytePoly_lt (a : Byte) : (bytePoly a).degree < 8 :=
  (degree_lt_iff_coeff_zero _ 8).2 fun i hi => by simp [coeff_bytePoly, BitVec.getLsbD_of_ge a i hi]

theorem bytePoly_xor (a b : Byte) : bytePoly (a ^^^ b) = bytePoly a + bytePoly b := by
  ext i
  simp only [coeff_add, coeff_bytePoly, BitVec.getLsbD_xor]
  cases a.getLsbD i <;> cases b.getLsbD i <;> rfl

/-- Shifting multiplies by x, but for the bit that is shifted out. -/
theorem X_mul_bytePoly_eq_shiftLeft (a : Byte) :
    X * bytePoly a = bytePoly (a <<< 1) + if a.getLsbD 7 then X ^ 8 else 0 := by
  ext n
  have top : (if a.getLsbD 7 then X ^ 8 else 0 : (ZMod 2)[X]).coeff n = if n = 8 ∧ a.getLsbD 7 then 1 else 0 := by
    cases a.getLsbD 7 <;> simp [coeff_X_pow]
  rw [coeff_add, top, coeff_bytePoly, BitVec.getLsbD_shiftLeft]
  cases n with
  | zero => simp
  | succ n =>
    rw [coeff_X_mul, coeff_bytePoly]
    obtain h | rfl | h := Nat.lt_trichotomy n 7
    · simp [h.ne, Nat.succ_lt_succ h]
    · simp
    · simp [h.ne', BitVec.getLsbD_of_ge a n h]

/-- `step_msb` multiplies by x and takes the generator off where x^8 comes up (R77). -/
theorem X_mul_bytePoly (poly a : Byte) :
    X * bytePoly a = bytePoly (stepMsb poly a) + if a.getLsbD 7 then generator poly else 0 := by
  rw [X_mul_bytePoly_eq_shiftLeft]
  unfold stepMsb generator
  split
  · rw [bytePoly_xor, add_add_add_comm, CharTwo.add_self_eq_zero, add_zero]
  · rfl

/-- Each step multiplies by x modulo the generator (R77, R78). -/
theorem generator_dvd_sub (poly a : Byte) (k : Nat) :
    generator poly ∣ X ^ k * bytePoly a - bytePoly ((stepMsb poly)^[k] a) := by
  induction k generalizing a with
  | zero => simp
  | succ k ih =>
    have step : X ^ (k + 1) * bytePoly a - bytePoly ((stepMsb poly)^[k + 1] a) =
        (X ^ k * bytePoly (stepMsb poly a) - bytePoly ((stepMsb poly)^[k] (stepMsb poly a))) +
          X ^ k * (if a.getLsbD 7 then generator poly else 0) := by
      rw [Function.iterate_succ_apply, pow_succ, mul_assoc, X_mul_bytePoly poly a]
      ring
    rw [step]
    refine dvd_add (ih _) (Dvd.dvd.mul_left ?_ _)
    split <;> simp

/-- A monic divisor of a power of x is a power of x, so a generator that divides one is x^8 alone. -/
theorem poly_eq_zero_of_generator_dvd {poly : Byte} {n : Nat} (h : generator poly ∣ X ^ n) : poly = 0 := by
  have hdeg := degree_bytePoly_lt poly
  have monic : (generator poly).Monic := monic_X_pow_add hdeg
  obtain ⟨k, -, assoc⟩ := (dvd_prime_pow prime_X n).1 h
  have power : generator poly = X ^ k := eq_of_monic_of_associated monic (monic_X_pow k) assoc
  have degree : (generator poly).degree = 8 :=
    (degree_add_eq_left_of_degree_lt (by rwa [degree_X_pow])).trans (degree_X_pow 8)
  obtain rfl : k = 8 := by
    rw [power, degree_X_pow] at degree
    exact_mod_cast degree
  exact bytePoly_eq_zero_iff.1 (by simpa [generator] using power)

/-- Under a nonzero polynomial no number of steps makes a single bit vanish. -/
theorem iterate_stepMsb_bit_ne_zero {poly : Byte} (hpoly : poly ≠ 0) {j : Nat} (hj : j < 8) (k : Nat) :
    (stepMsb poly)^[k] (1#8 <<< j) ≠ 0 := by
  intro h
  have divides := generator_dvd_sub poly (1#8 <<< j) k
  rw [h, bytePoly_eq_zero_iff.2 rfl, sub_zero, bytePoly_bit hj, ← pow_add] at divides
  exact hpoly (poly_eq_zero_of_generator_dvd divides)

end

/-! ### Single-bit errors -/

/-- A bit mirrored is the bit counted from the other end. -/
theorem rev8_bit {j : Nat} (hj : j < 8) : rev8 (1#8 <<< j) = 1#8 <<< (7 - j) := by
  revert j; decide

/-- Steps least significant bit first are mirrored steps most significant bit first. -/
theorem iterate_stepLsb (poly a : Byte) (k : Nat) : (stepLsb poly)^[k] a = rev8 ((stepMsb poly)^[k] (rev8 a)) := by
  have mirror : Function.Semiconj rev8 (stepMsb poly) (stepLsb poly) := fun b => (stepLsb_rev8 poly b).symm
  rw [(mirror.iterate_right k).eq, rev8_rev8]

/-- Under a nonzero polynomial no number of steps makes a single bit vanish, in either bit order. -/
theorem iterate_crcStep_bit_ne_zero {p : CrcParams} (hpoly : p.poly ≠ 0) {j : Nat} (hj : j < 8) (k : Nat) :
    (crcStep p)^[k] (1#8 <<< j) ≠ 0 := by
  obtain ⟨poly, init, _ | _⟩ := p
  · change (stepLsb poly)^[k] (1#8 <<< j) ≠ 0
    rw [iterate_stepLsb, rev8_bit hj]
    exact BitVec.reverse_eq_zero_iff.not.2 (iterate_stepMsb_bit_ne_zero hpoly (by omega) k)
  · exact iterate_stepMsb_bit_ne_zero hpoly hj k

/-- A nonzero polynomial is all that R82 needs (R83). -/
theorem detectsSingleBitErrors_of_poly_ne_zero {p : CrcParams} (hpoly : p.poly ≠ 0) : detectsSingleBitErrors p := by
  intro bs i b j hget hj heq
  have difference := foldl_crcUpdate_set p (acc := p.init) (1#8 <<< j) hget
  refine iterate_crcStep_bit_ne_zero hpoly hj (8 * (bs.length - i)) ?_
  exact (BitVec.xor_right_inj _).1 ((difference.symm.trans heq).trans BitVec.xor_zero.symm)

/-- Settles O21: the block's own polynomial is nonzero (R5). -/
theorem singleBitErrorsAreCaught : Obligations.SingleBitErrorsAreCaught := by
  unfold Obligations.SingleBitErrorsAreCaught
  intro bs i b j hget hj
  have detected := detectsSingleBitErrors_of_poly_ne_zero Config_crc_poly_ne_zero bs i b j hget hj
  exact ⟨detected, beq_eq_false_iff_ne.2 detected⟩

/-- Under the zero polynomial eight steps shift the whole byte out. -/
theorem iterate_stepMsb_zero_poly (a : Byte) : (stepMsb 0)^[8] a = 0 := by
  have shifts : stepMsb 0 = fun b : Byte => b <<< 1 := funext fun b => by simp [stepMsb]
  rw [shifts]
  simp [Nat.iterate, ← BitVec.shiftLeft_add, BitVec.shiftLeft_eq_zero]

theorem crcUpdate_of_poly_eq_zero {p : CrcParams} (hpoly : p.poly = 0) (acc b : Byte) : crcUpdate p acc b = 0 := by
  obtain ⟨poly, init, _ | _⟩ := p <;> obtain rfl : poly = 0 := hpoly
  · change (stepLsb 0)^[8] (acc ^^^ b) = 0
    rw [iterate_stepLsb, iterate_stepMsb_zero_poly]
    rfl
  · exact iterate_stepMsb_zero_poly (acc ^^^ b)

theorem foldl_crcUpdate_of_poly_eq_zero {p : CrcParams} (hpoly : p.poly = 0) (bs : List Byte) :
    bs.foldl (crcUpdate p) 0 = 0 := by
  induction bs with
  | nil => rfl
  | cons b bs ih => rw [List.foldl_cons, crcUpdate_of_poly_eq_zero hpoly, ih]

/-- Under the zero polynomial every checksum but the empty one is zero (R83). -/
theorem crcCompute_cons_of_poly_eq_zero {p : CrcParams} (hpoly : p.poly = 0) (b : Byte) (bs : List Byte) :
    crcCompute p (b :: bs) = 0 := by
  rw [crcCompute, List.foldl_cons, crcUpdate_of_poly_eq_zero hpoly, foldl_crcUpdate_of_poly_eq_zero hpoly]

/-- Settles O22: under the zero polynomial an error in a message of one byte goes unseen. -/
theorem nonzeroPolynomialIsExactlyWhatIsNeeded : Obligations.NonzeroPolynomialIsExactlyWhatIsNeeded := by
  unfold Obligations.NonzeroPolynomialIsExactlyWhatIsNeeded
  refine fun p =>
    ⟨⟨fun detects hpoly => ?_, detectsSingleBitErrors_of_poly_ne_zero⟩, crcCompute_cons_of_poly_eq_zero⟩
  have unseen (b : Byte) : crcCompute p [b] = 0 := crcCompute_cons_of_poly_eq_zero hpoly b []
  exact detects [0] 0 0 0 rfl (by decide) ((unseen _).trans (unseen 0).symm)

/-! ### The words of the checksum operations -/

/-- Settles O23: with a zero operand the word encodes CINIT, and otherwise R52 names it. -/
theorem cinitLoadsInitialValue : Obligations.CinitLoadsInitialValue := by
  unfold Obligations.CinitLoadsInitialValue
  refine ⟨fun _ => rfl, fun s w rest hop => ?_⟩
  split
  · next harg =>
    have word : commandWord 4 0 = w := commandWord_eq_iff.2 ⟨hop, harg⟩
    exact step_presenting_of_encode (i := .cinit) (congrArg Encoding.command word) s rest
  · next harg => exact illegalWordsSetOnlyIll.2.2 s w rest (by simpa [illegalWord, hop] using harg)

/-- Where every operand byte is legal, a word of the opcode is executed with its own operand. -/
theorem step_presenting_of_opField {f : Byte → Instr} {op : BitVec 3}
    (hf : ∀ b, encode (f b) = .command (commandWord op b)) (s : State) {w : CmdWord} (rest : List PortInput)
    (hop : opField w = op) : step (presenting s w rest) = exec (f (argField w)) (s.setPort rest) :=
  step_presenting_of_encode ((hf _).trans (congrArg Encoding.command (commandWord_eq_iff.2 ⟨hop, rfl⟩))) s rest

/-- Settles O24: every word of the opcode encodes CUPD of its operand. -/
theorem cupdFoldsOneByte : Obligations.CupdFoldsOneByte := by
  unfold Obligations.CupdFoldsOneByte
  exact ⟨fun _ _ => rfl, fun s _ rest => step_presenting_of_opField (f := .cupd) (fun _ => rfl) s rest⟩

/-- Settles O25: every word of the opcode encodes CVFY of its operand. -/
theorem cvfyComparesAccumulator : Obligations.CvfyComparesAccumulator := by
  unfold Obligations.CvfyComparesAccumulator
  exact ⟨fun _ _ => rfl, fun s _ rest => step_presenting_of_opField (f := .cvfy) (fun _ => rfl) s rest⟩

/-- Settles O20: the fold's equations, and a comparison of bytes. -/
theorem computeFoldsAndVerifyCompares : Obligations.ComputeFoldsAndVerifyCompares := by
  unfold Obligations.ComputeFoldsAndVerifyCompares
  exact fun p bs b e => ⟨rfl, List.foldl_concat .., beq_iff_eq, beq_self_eq_true _⟩

/-! ### The host's computation -/

/-- A command word encodes no frame format. -/
theorem not_wellFormedAt_buffer_of_command {i : Instr} {v : CmdWord} (h : encode i = .command v) (mode : ModeCode) :
    i.wellFormedAt (.buffer mode) = false := by
  cases i with
  | fclr | push | dec | fast | cinit | cupd | cvfy | setm => rfl
  | f24 | f24s | f24c | f24sc | f16 | f16s | f16c | f16sc => cases h

/-- But for CINIT, CUPD and a completed DEC under CKSUM_EN, no command word writes ACC (R87). -/
theorem exec_keeps_acc {i : Instr} {s t : State} {v : CmdWord} (hi : encode i = .command v) (hinit : i ≠ .cinit)
    (hupd : ∀ b, i ≠ .cupd b) (hdec : i = .dec → cksumEn s.mode = false ∨ s.cnt.toNat ≠ frameLength s.mode)
    (h : exec i s = .next t) : t.acc = s.acc := by
  obtain ⟨w, hw, rfl⟩ := exec_eq_next_iff.1 h
  cases w with
  | acc a =>
    obtain hc | ⟨b, hb⟩ := effect_comesFrom hw
    · exact absurd hc hinit
    · exact absurd hb (hupd b)
  | data c =>
    refine deliver_acc_of_not_recomputed fun hsome => ?_
    obtain ⟨rfl, hen⟩ | ⟨mode, hformat, -⟩ := (effect_comesFrom hw).2 hsome
    · obtain hoff | hcnt := hdec rfl
      · cases hoff.symm.trans hen
      · change decEffect s = _ at hw
        rw [decEffect, if_neg hcnt] at hw
        cases hw
    · cases (not_wellFormedAt_buffer_of_command hi mode).symm.trans hformat
  | modecfg | cnt | frame | veq | unspecified | raised => rfl

/-- An edge that R87 allows between the CUPDs keeps ACC. -/
theorem step_keeps_acc {s t : State} {p : PortInput} {rest : List PortInput} (hport : s.port = p :: rest)
    (hp : leavesAcc s p) (h : step s = .next t) : t.acc = s.acc := by
  obtain ⟨hrst, hallowed⟩ := hp
  cases hv : p.cmdValid with
  | false => cases (step_of_idle hport hrst hv).symm.trans h; rfl
  | true =>
    cases hd : decode (.command p.cmd) with
    | error r => cases (step_of_decode_error hport hrst hv hd).symm.trans h; rfl
    | ok i =>
      obtain ⟨hinit, hupd, hdec⟩ := hallowed hv i hd
      exact exec_keeps_acc (s := s.setPort rest) (decode_eq_ok_iff.1 hd) hinit hupd hdec
        ((step_of_decode_ok hport hrst hv hd).symm.trans h)

/-- A run that folds bytes leaves their fold in ACC; by induction on the run. -/
theorem acc_eq_of_folds {s t : State} {bs : List Byte} (h : Folds s bs t) :
    t.acc = bs.foldl (crcUpdate Config.crc) s.acc := by
  induction h with
  | done s => rfl
  | cupd s s' t b bs rest hport hstep _ ih =>
    cases (step_of_decode_ok hport rfl rfl (decode_encode (.cupd b))).symm.trans hstep
    exact ih
  | quiet s s' t p bs rest hport hp hstep _ ih => rw [ih, step_keeps_acc hport hp hstep]

/-- Settles O26: CINIT starts the fold, and CVFY compares what it has come to. -/
theorem hostComputesAndVerifies : Obligations.HostComputesAndVerifies := by
  unfold Obligations.HostComputesAndVerifies
  intro s s' t rest bs hport hinit hfolds
  cases (step_of_decode_ok hport rfl rfl (decode_encode .cinit)).symm.trans hinit
  have hacc : t.acc = crcCompute Config.crc bs := acc_eq_of_folds hfolds
  exact ⟨hacc, fun e => by rw [crcVerify, ← hacc]; rfl⟩

end Sys2Proof.Proofs

/-! Proofs of the family 42_frame_decode.md: the sign-extended sample, the decode of a whole frame in closed form, and
the frame formats as what DEC and FAST run. -/

namespace Sys2Proof.Proofs

open Sys2Proof.Machine Sys2Proof.Claims

/-! ### The sample -/

section
variable {w : Nat} (hw : w ≤ 32) (raw : BitVec w)

/-- Above the raw value's bits the sample repeats its sign bit (R92). -/
theorem getLsbD_sext32 {i : Nat} (hi : i < 32) :
    (sext32 raw).getLsbD i = if i < w then raw.getLsbD i else raw.getLsbD (w - 1) := by
  rw [sext32, BitVec.getLsbD_signExtend, decide_eq_true hi, Bool.true_and, BitVec.msb_eq_getLsbD_last]

include hw

theorem toInt_sext32 : (sext32 raw).toInt = raw.toInt := BitVec.toInt_signExtend_of_le hw

/-- As a number the sample is the raw value, less 2^w where the sign bit is set (R92). -/
theorem toInt_sext32_eq_sub : (sext32 raw).toInt = raw.toNat - 2 ^ w * (raw.getLsbD (w - 1)).toNat := by
  rw [toInt_sext32 hw, BitVec.toInt_eq_msb_cond, BitVec.msb_eq_getLsbD_last]
  cases raw.getLsbD (w - 1) <;> simp

theorem toInt_sext32_bounds : -2 ^ (w - 1) ≤ (sext32 raw).toInt ∧ (sext32 raw).toInt ≤ 2 ^ (w - 1) - 1 := by
  rw [toInt_sext32 hw]
  exact ⟨raw.le_toInt, Int.le_sub_one_of_lt BitVec.toInt_lt⟩

end

/-- Settles O27: the extractor by RES16, and the two widths of the sign extension. -/
theorem sampleIsSignExtended : Obligations.SampleIsSignExtended := by
  unfold Obligations.SampleIsSignExtended
  refine ⟨fun mode b0 b1 b2 f => ?_, fun raw => ⟨fun i hi => getLsbD_sext32 raw hi, ?_, ?_⟩,
    fun raw => ⟨fun i hi => getLsbD_sext32 raw hi, ?_, ?_⟩, rfl, rfl, rfl, rfl⟩
  · unfold extractSample
    cases res16 mode <;> rfl
  · exact toInt_sext32_eq_sub (by decide) raw
  · exact toInt_sext32_bounds (by decide) raw
  · exact toInt_sext32_eq_sub (by decide) raw
  · exact toInt_sext32_bounds (by decide) raw

/-! ### The decode function in closed form -/

/-- The bytes f of a whole frame of the mode, first one first. -/
def wholeFrame (mode : ModeCode) (f : Nat → Byte) : List Byte := (List.range (frameLength mode)).map f

/-- What the frame of these bytes decodes to, in closed form over the flags (R91 to R94). -/
def frameData (mode : ModeCode) (f : Nat → Byte) : ChannelData where
  sample := if res16 mode then sext32 (f 0 ++ f 1) else sext32 (f 0 ++ f 1 ++ f 2)
  status := if statusEn mode then f (sampleLength mode) else 0
  cksum := if cksumEn mode then f (frameLength mode - 1) else 0
  ckerr := cksumEn mode && decide (frameChecksum mode f ≠ f (frameLength mode - 1))
  recomputed := if cksumEn mode then some (frameChecksum mode f) else none

theorem length_wholeFrame (mode : ModeCode) (f : Nat → Byte) : (wholeFrame mode f).length = frameLength mode := by
  simp [wholeFrame]

theorem getElem?_wholeFrame {mode : ModeCode} {f : Nat → Byte} {i : Nat} (hi : i < frameLength mode) :
    (wholeFrame mode f)[i]? = some (f i) := by
  simp [wholeFrame, hi]

/-- The status byte stands after the sample (R91). -/
theorem sampleLength_lt {mode : ModeCode} (hs : statusEn mode = true) : sampleLength mode < frameLength mode := by
  rw [frameLength, hs, Bool.toNat_true]
  omega

theorem extractSample_wholeFrame (mode : ModeCode) (f : Nat → Byte) :
    extractSample mode (wholeFrame mode f) = some (frameData mode f).sample := by
  have bytes : ∃ rest, wholeFrame mode f = (List.range (sampleLength mode)).map f ++ rest :=
    ⟨_, by rw [wholeFrame, frameLength, Nat.add_assoc, List.range_add, List.map_append]⟩
  obtain ⟨rest, hbytes⟩ := bytes
  rw [hbytes]
  unfold extractSample frameData sampleLength
  cases res16 mode <;> rfl

theorem extractStatus_wholeFrame (mode : ModeCode) (f : Nat → Byte) :
    extractStatus mode (wholeFrame mode f) = some (frameData mode f).status := by
  unfold extractStatus frameData
  split
  · next hs => exact getElem?_wholeFrame (sampleLength_lt hs)
  · rfl

theorem extractChecksum_wholeFrame (mode : ModeCode) (f : Nat → Byte) :
    extractChecksum mode (wholeFrame mode f) = some (frameData mode f).cksum := by
  have last : frameLength mode - 1 < frameLength mode := by have := (frameLength_bounds mode).1; omega
  unfold extractChecksum frameData
  split
  · exact getElem?_wholeFrame last
  · rfl

/-- The checksum covers the bytes before the last one (R94). -/
theorem crcCompute_coveredBytes_wholeFrame (mode : ModeCode) (f : Nat → Byte) :
    crcCompute Config.crc (coveredBytes mode (wholeFrame mode f)) = frameChecksum mode f := by
  rw [coveredBytes, wholeFrame, ← List.map_take, List.take_range, Nat.min_eq_left (Nat.sub_le _ 1), frameChecksum]

theorem bne_eq_decide_ne (a b : Byte) : (a != b) = decide (a ≠ b) := decide_not.symm

/-- A whole frame decodes to its closed form. -/
theorem frameDecode_wholeFrame (mode : ModeCode) (f : Nat → Byte) :
    frameDecode Config.crc mode (wholeFrame mode f) = some (frameData mode f) := by
  rw [frameDecode, if_pos (length_wholeFrame mode f), extractSample_wholeFrame, extractStatus_wholeFrame,
    extractChecksum_wholeFrame, crcCompute_coveredBytes_wholeFrame]
  unfold frameData
  cases cksumEn mode with
  | false => rfl
  | true => exact congrArg some (congrArg (ChannelData.mk _ _ _ · _) (bne_eq_decide_ne _ _))

/-! ### DEC on a whole frame -/

theorem readBytes_cons {m : Memory} {a n : Nat} {b : Byte} {bs : List Byte} (hb : m.readByte a = .ok b)
    (hbs : m.readBytes (a + 1) n = .ok bs) : m.readBytes a (n + 1) = .ok (b :: bs) :=
  (Memory.readBytes_succ_ok m a n _).2 ⟨b, bs, hb, hbs, rfl⟩

/-- Bytes that can be read one by one can be read together. -/
theorem readBytes_map_range {m : Memory} {a n : Nat} {f : Nat → Byte}
    (h : ∀ i, i < n → m.readByte (a + i) = .ok (f i)) : m.readBytes a n = .ok ((List.range n).map f) := by
  induction n generalizing a f with
  | zero => rfl
  | succ n ih =>
    rw [List.range_succ_eq_map, List.map_cons, List.map_map]
    refine readBytes_cons (h 0 n.succ_pos) (ih fun i hi => ?_)
    rw [Nat.add_assoc, Nat.add_comm 1 i]
    exact h (i + 1) (Nat.succ_lt_succ hi)

/-- With the frame's count of bytes pushed, DEC delivers what the decode function answers on them (R100). -/
theorem dec_of_frameDecode {s : State} {bytes : List Byte} {c : ChannelData} (hcnt : s.cnt.toNat = frameLength s.mode)
    (hread : s.fb.readBytes 0 (frameLength s.mode) = .ok bytes) (hc : frameDecode Config.crc s.mode bytes = some c) :
    exec .dec s = .next (s.deliver c) := by
  refine exec_eq_next_iff.2 ⟨.data c, ?_, rfl⟩
  rw [effect, decEffect, if_pos hcnt, hread]
  simp only [Except.map, hc]

theorem dec_of_wrong_count {s : State} (h : s.cnt.toNat ≠ frameLength s.mode) :
    exec .dec s = .next (withErr s 0b100) :=
  exec_eq_next_iff.2 ⟨.raised .frameLength, by rw [effect, decEffect, if_neg h], rfl⟩

/-- DEC of a whole frame delivers the closed form. -/
theorem dec_of_holds {s : State} {f : Nat → Byte} (hcnt : s.cnt.toNat = frameLength s.mode)
    (hf : ∀ i, i < frameLength s.mode → holds s i (f i)) :
    exec .dec s = .next (s.deliver (frameData s.mode f)) := by
  refine dec_of_frameDecode hcnt (readBytes_map_range fun i hi => ?_) (frameDecode_wholeFrame s.mode f)
  rw [Nat.zero_add]
  exact hf i hi

/-- A word of an opcode without operand is executed when its operand bits are zero, and R52 names it otherwise. -/
theorem step_presenting_of_bare {i : Instr} {op : BitVec 3} (hi : encode i = .command (commandWord op 0))
    (hop : op = 0 ∨ op = 2 ∨ op = 3 ∨ op = 4) (s : State) {w : CmdWord} (rest : List PortInput)
    (hw : opField w = op) : step (presenting s w rest) =
      if argField w = 0 then exec i { s with port := rest } else .next (withErr { s with port := rest } 0b001) := by
  split
  · next harg => exact step_presenting_of_encode (hi.trans (congrArg _ (commandWord_eq_iff.2 ⟨hw, harg⟩))) s rest
  · next harg =>
    refine illegalWordsSetOnlyIll.2.2 s w rest ?_
    have nonzero : (argField w != 0) = true := bne_iff_ne.2 harg
    rw [illegalWord, hw, nonzero]
    obtain rfl | rfl | rfl | rfl := hop <;> rfl

/-- Settles O28: the delivered closed form, a wrong count, and the words of a bare opcode. -/
theorem decDecodesTheFrame : Obligations.DecDecodesTheFrame := by
  unfold Obligations.DecDecodesTheFrame
  refine ⟨fun s f hcnt hf => ?_, fun s h => dec_of_wrong_count h, fun s w rest hop => ?_⟩
  · rw [dec_of_holds hcnt hf]
    unfold frameData State.deliver
    cases cksumEn s.mode <;> rfl
  · exact step_presenting_of_bare (i := .dec) rfl (by decide) s rest hop

/-- Of a frame with a checksum byte, all but the checksum shown and the mismatch bit is read off the bytes before that
byte (R94, R95). -/
theorem frameData_of_agree {mode : ModeCode} {f g : Nat → Byte} (hen : cksumEn mode = true)
    (agree : ∀ i, i < frameLength mode - 1 → g i = f i) :
    frameData mode g = { frameData mode f with
      cksum := g (frameLength mode - 1)
      ckerr := decide (frameChecksum mode f ≠ g (frameLength mode - 1)) } := by
  have last : frameLength mode - 1 = sampleLength mode + (statusEn mode).toNat := by
    rw [frameLength, hen, Bool.toNat_true, Nat.add_sub_cancel]
  have sampled : ∀ i, i < sampleLength mode → g i = f i := fun i hi => agree i (by omega)
  have covered : frameChecksum mode g = frameChecksum mode f :=
    congrArg (crcCompute Config.crc) (List.map_congr_left fun i hi => agree i (List.mem_range.1 hi))
  simp only [frameData, hen, covered, ChannelData.mk.injEq, Bool.true_and, ↓reduceIte, and_true]
  constructor
  · unfold sampleLength at sampled
    split at sampled
    · next hr => rw [if_pos hr, if_pos hr, sampled 0 (by decide), sampled 1 (by decide)]
    · next hr => rw [if_neg hr, if_neg hr, sampled 0 (by decide), sampled 1 (by decide), sampled 2 (by decide)]
  · split
    · next hs => exact agree _ (by rw [last, hs]; exact Nat.lt_succ_self _)
    · rfl

/-- With its checksum byte corrected a frame verifies, and decodes as before. -/
theorem frameData_update_checksum {mode : ModeCode} (hen : cksumEn mode = true) (f : Nat → Byte) :
    frameData mode (Function.update f (frameLength mode - 1) (frameChecksum mode f)) =
      { frameData mode f with cksum := frameChecksum mode f, ckerr := false } := by
  rw [frameData_of_agree hen fun i hi => Function.update_of_ne hi.ne _ f, Function.update_self,
    decide_eq_false (absurd rfl)]

/-- Settles O41: the recomputed checksum of R95 is ACC, so the frame that shows it is the corrected one. -/
theorem mismatchSuppressesNothing : Obligations.MismatchSuppressesNothing := by
  unfold Obligations.MismatchSuppressesNothing
  intro s f hen hcnt hf
  have received : (frameData s.mode f).cksum = f (frameLength s.mode - 1) := if_pos hen
  have recomputed : (s.deliver (frameData s.mode f)).acc = frameChecksum s.mode f := by
    rw [State.deliver_acc, frameData, hen]
    rfl
  refine ⟨_, dec_of_holds hcnt hf, rfl, received, ?_, fun m hm hsum => ?_⟩
  · rw [recomputed, State.deliver_cksum, received, State.deliver_ckerr, frameData, hen, Bool.true_and]
  · have corrected : ∀ i, i < frameLength s.mode →
        m.readByte i = .ok (Function.update f (frameLength s.mode - 1) (frameChecksum s.mode f) i) := by
      intro i hi
      obtain rfl | hne := eq_or_ne i (frameLength s.mode - 1)
      · rw [hsum, recomputed, Function.update_self]
      · rw [hm i (by omega), Function.update_of_ne hne]
    refine (dec_of_holds (s := withFb m s) hcnt corrected).trans ?_
    change Host.Outcome.next ((withFb m s).deliver (frameData s.mode _)) = _
    rw [frameData_update_checksum hen, ← recomputed]
    rfl

/-! ### The frame formats -/

theorem completeFrame_of_count {s : State} {len : Nat} {c : ChannelData} (h : s.cnt.toNat = len) :
    completeFrame len c s = .next (s.deliver c) :=
  if_pos h

theorem completeFrame_of_wrong_count {s : State} {len : Nat} {c : ChannelData} (h : s.cnt.toNat ≠ len) :
    completeFrame len c s = .next (withErr s 0b100) :=
  if_neg h

/-- A format completes with what the decode function answers on the bytes that encode it (R96, R101 to R108). -/
theorem frameDecode_of_encode {i : Instr} {mode : ModeCode} {bytes : List Byte} (h : encode i = .frame mode bytes) :
    ∃ c, frameDecode Config.crc mode bytes = some c ∧ ∀ s, exec i s = completeFrame (frameLength mode) c s := by
  cases i with
  | fclr | push | dec | fast | cinit | cupd | cvfy | setm => cases h
  | f24 d | f24s d | f24c d | f24sc d =>
    cases h
    refine ⟨_, ?_, fun s => rfl⟩
    exact congrArg (fun raw : BitVec 24 => some (ChannelData.mk (sext32 raw) _ _ _ _)) (join_bytesOf24 d)
  | f16 d | f16s d | f16c d | f16sc d =>
    cases h
    refine ⟨_, ?_, fun s => rfl⟩
    exact congrArg (fun raw : BitVec 16 => some (ChannelData.mk (sext32 raw) _ _ _ _)) (join_bytesOf16 d)

/-- A frame format stands in the buffer under its own mode code (R49). -/
theorem wellFormedAt_of_encode {i : Instr} {mode : ModeCode} {bytes : List Byte} (h : encode i = .frame mode bytes) :
    i.wellFormedAt (.buffer mode) = true := by
  cases i with
  | fclr | push | dec | fast | cinit | cupd | cvfy | setm => cases h
  | f24 | f24s | f24c | f24sc | f16 | f16s | f16c | f16sc => cases h; rfl

/-- A sequence of the mode's length is a frame of its format (R48, R49). -/
theorem decode_frame_of_length {mode : ModeCode} {bytes : List Byte} (h : bytes.length = frameLength mode) :
    ∃ i, decode (.frame mode bytes) = .ok i := by
  obtain ⟨m, rfl⟩ : ∃ m : DataMode, m.code = mode := ⟨_, modeCodesNameTheEightVariants.2.1 mode⟩
  cases m with
  | m16 => match bytes, h with | [_, _], _ => exact ⟨_, rfl⟩
  | m24 | m16s | m16c => match bytes, h with | [_, _, _], _ => exact ⟨_, rfl⟩
  | m24s | m24c | m16sc => match bytes, h with | [_, _, _, _], _ => exact ⟨_, rfl⟩
  | m24sc => match bytes, h with | [_, _, _, _, _], _ => exact ⟨_, rfl⟩

/-- DEC is the format whose encoding stands in FB under MODE. -/
theorem dec_eq_exec_of_encode {s : State} {i : Instr} {bytes : List Byte} (hi : encode i = .frame s.mode bytes)
    (hcnt : s.cnt.toNat = frameLength s.mode) (hread : s.fb.readBytes 0 (frameLength s.mode) = .ok bytes) :
    exec .dec s = exec i s := by
  obtain ⟨c, hc, hexec⟩ := frameDecode_of_encode hi
  rw [dec_of_frameDecode hcnt hread hc, hexec, completeFrame_of_count hcnt]

/-- Settles O39: a whole frame decodes, to the format that it encodes. -/
theorem decRunsTheFrameItReads : Obligations.DecRunsTheFrameItReads := by
  unfold Obligations.DecRunsTheFrameItReads
  intro s bytes hcnt hread
  obtain ⟨i, hd⟩ := decode_frame_of_length (Memory.readBytes_length hread)
  have hi : encode i = .frame s.mode bytes := decode_eq_ok_iff.1 hd
  exact ⟨i, hd, wellFormedAt_of_encode hi, dec_eq_exec_of_encode hi hcnt hread⟩

/-- What is left to show of a format's rule for DEC: that the bytes encode the format, and what the format does. -/
theorem decode_and_dec_of_frame {s t : State} {i : Instr} {bytes : List Byte} (hi : encode i = .frame s.mode bytes)
    (hcnt : s.cnt.toNat = bytes.length) (hread : s.fb.readBytes 0 bytes.length = .ok bytes)
    (hrun : exec i s = .next t) : decode (.frame s.mode bytes) = .ok i ∧ exec .dec s = .next t := by
  have hlen := length_of_encode_eq_frame hi
  exact ⟨decode_eq_ok_iff.2 hi, (dec_eq_exec_of_encode hi (hcnt.trans hlen) (hlen ▸ hread)).trans hrun⟩

/-- A format with a checksum byte leaves the covered bytes' checksum in ACC (R94, R100). -/
theorem completeFrame_checked {s : State} {len : Nat} {sample : Word32} {status c : Byte} {covered bytes : List Byte}
    (h : s.cnt.toNat = len) (hbytes : covered = bytes) :
    completeFrame len (checkedData sample status covered c) s =
      .next (decodedChecked s sample status c (crcCompute Config.crc bytes)) := by
  subst hbytes
  rw [completeFrame_of_count h, decodedChecked, ← bne_eq_decide_ne]
  rfl

/-! Each format's rule (R101 to R108) is what the format itself does, that its bytes encode it, and the wrong count. -/

/-- Settles O29: three bytes, the sample alone. -/
theorem formatF24 : Obligations.FormatF24 := by
  unfold Obligations.FormatF24
  intro s hm
  refine ⟨fun hcnt _ => completeFrame_of_count hcnt,
    fun hcnt b0 b1 b2 h0 h1 h2 => ?_,
    fun hcnt => ⟨dec_of_wrong_count (hm ▸ hcnt), fun _ => completeFrame_of_wrong_count hcnt⟩⟩
  have read : s.fb.readBytes 0 3 = .ok [b0, b1, b2] := readBytes_cons h0 <| readBytes_cons h1 <| readBytes_cons h2 rfl
  exact decode_and_dec_of_frame (by simp [encode, hm]) hcnt read (completeFrame_of_count hcnt)

/-- Settles O30: four bytes, with status and no checksum byte. -/
theorem formatF24S : Obligations.FormatF24S := by
  unfold Obligations.FormatF24S
  intro s hm
  refine ⟨fun hcnt _ _ => completeFrame_of_count hcnt,
    fun hcnt b0 b1 b2 b3 h0 h1 h2 h3 => ?_,
    fun hcnt => ⟨dec_of_wrong_count (hm ▸ hcnt), fun _ _ => completeFrame_of_wrong_count hcnt⟩⟩
  have read : s.fb.readBytes 0 4 = .ok [b0, b1, b2, b3] :=
    readBytes_cons h0 <| readBytes_cons h1 <| readBytes_cons h2 <| readBytes_cons h3 rfl
  exact decode_and_dec_of_frame (by simp [encode, hm]) hcnt read (completeFrame_of_count hcnt)

/-- Settles O31: four bytes, of which the checksum covers the sample. -/
theorem formatF24C : Obligations.FormatF24C := by
  unfold Obligations.FormatF24C
  intro s hm
  refine ⟨fun hcnt b0 b1 b2 _ => completeFrame_checked hcnt (bytesOf24_join b0 b1 b2),
    fun hcnt b0 b1 b2 b3 h0 h1 h2 h3 => ?_,
    fun hcnt => ⟨dec_of_wrong_count (hm ▸ hcnt), fun _ _ => completeFrame_of_wrong_count hcnt⟩⟩
  have read : s.fb.readBytes 0 4 = .ok [b0, b1, b2, b3] :=
    readBytes_cons h0 <| readBytes_cons h1 <| readBytes_cons h2 <| readBytes_cons h3 rfl
  exact decode_and_dec_of_frame (by simp [encode, hm]) hcnt read
    (completeFrame_checked hcnt (bytesOf24_join b0 b1 b2))

/-- Settles O32: five bytes, of which the checksum covers the sample and the status. -/
theorem formatF24SC : Obligations.FormatF24SC := by
  unfold Obligations.FormatF24SC
  intro s hm
  refine ⟨fun hcnt b0 b1 b2 b3 _ => completeFrame_checked hcnt (congrArg (· ++ [b3]) (bytesOf24_join b0 b1 b2)),
    fun hcnt b0 b1 b2 b3 b4 h0 h1 h2 h3 h4 => ?_,
    fun hcnt => ⟨dec_of_wrong_count (hm ▸ hcnt), fun _ _ _ => completeFrame_of_wrong_count hcnt⟩⟩
  have read : s.fb.readBytes 0 5 = .ok [b0, b1, b2, b3, b4] :=
    readBytes_cons h0 <| readBytes_cons h1 <| readBytes_cons h2 <| readBytes_cons h3 <| readBytes_cons h4 rfl
  exact decode_and_dec_of_frame (by simp [encode, hm]) hcnt read
    (completeFrame_checked hcnt (congrArg (· ++ [b3]) (bytesOf24_join b0 b1 b2)))

/-- Settles O33: two bytes, the sample alone. -/
theorem formatF16 : Obligations.FormatF16 := by
  unfold Obligations.FormatF16
  intro s hm
  refine ⟨fun hcnt _ => completeFrame_of_count hcnt,
    fun hcnt b0 b1 h0 h1 => ?_,
    fun hcnt => ⟨dec_of_wrong_count (hm ▸ hcnt), fun _ => completeFrame_of_wrong_count hcnt⟩⟩
  have read : s.fb.readBytes 0 2 = .ok [b0, b1] := readBytes_cons h0 <| readBytes_cons h1 rfl
  exact decode_and_dec_of_frame (by simp [encode, hm]) hcnt read (completeFrame_of_count hcnt)

/-- Settles O34: three bytes, with status and no checksum byte. -/
theorem formatF16S : Obligations.FormatF16S := by
  unfold Obligations.FormatF16S
  intro s hm
  refine ⟨fun hcnt _ _ => completeFrame_of_count hcnt,
    fun hcnt b0 b1 b2 h0 h1 h2 => ?_,
    fun hcnt => ⟨dec_of_wrong_count (hm ▸ hcnt), fun _ _ => completeFrame_of_wrong_count hcnt⟩⟩
  have read : s.fb.readBytes 0 3 = .ok [b0, b1, b2] := readBytes_cons h0 <| readBytes_cons h1 <| readBytes_cons h2 rfl
  exact decode_and_dec_of_frame (by simp [encode, hm]) hcnt read (completeFrame_of_count hcnt)

/-- Settles O35: three bytes, of which the checksum covers the sample. -/
theorem formatF16C : Obligations.FormatF16C := by
  unfold Obligations.FormatF16C
  intro s hm
  refine ⟨fun hcnt b0 b1 _ => completeFrame_checked hcnt (bytesOf16_join b0 b1),
    fun hcnt b0 b1 b2 h0 h1 h2 => ?_,
    fun hcnt => ⟨dec_of_wrong_count (hm ▸ hcnt), fun _ _ => completeFrame_of_wrong_count hcnt⟩⟩
  have read : s.fb.readBytes 0 3 = .ok [b0, b1, b2] := readBytes_cons h0 <| readBytes_cons h1 <| readBytes_cons h2 rfl
  exact decode_and_dec_of_frame (by simp [encode, hm]) hcnt read (completeFrame_checked hcnt (bytesOf16_join b0 b1))

/-- Settles O36: four bytes, of which the checksum covers the sample and the status. -/
theorem formatF16SC : Obligations.FormatF16SC := by
  unfold Obligations.FormatF16SC
  intro s hm
  refine ⟨fun hcnt b0 b1 b2 _ => completeFrame_checked hcnt (congrArg (· ++ [b2]) (bytesOf16_join b0 b1)),
    fun hcnt b0 b1 b2 b3 h0 h1 h2 h3 => ?_,
    fun hcnt => ⟨dec_of_wrong_count (hm ▸ hcnt), fun _ _ _ => completeFrame_of_wrong_count hcnt⟩⟩
  have read : s.fb.readBytes 0 4 = .ok [b0, b1, b2, b3] :=
    readBytes_cons h0 <| readBytes_cons h1 <| readBytes_cons h2 <| readBytes_cons h3 rfl
  exact decode_and_dec_of_frame (by simp [encode, hm]) hcnt read
    (completeFrame_checked hcnt (congrArg (· ++ [b2]) (bytesOf16_join b0 b1)))

/-! ### The fast path -/

/-- Settles O38: in mode 0 the two have one effect. -/
theorem fastEqualsDecInModeZero : Obligations.FastEqualsDecInModeZero := by
  unfold Obligations.FastEqualsDecInModeZero
  intro s hm
  rw [exec_eq_outcomeOf_effect, exec_eq_outcomeOf_effect]
  exact congrArg (outcomeOf s) (fastEffect_eq_decEffect hm)

/-- Settles O37: in mode 0 FAST is DEC of format F24, and outside it draws its four results. -/
theorem fastDecodesInItsMode : Obligations.FastDecodesInItsMode := by
  unfold Obligations.FastDecodesInItsMode
  refine ⟨fun s b0 b1 b2 hm hcnt h0 h1 h2 => ?_, fun s hm hcnt => ?_, fun s hm => ?_, fun s w rest hop => ?_⟩
  · have count : s.cnt.toNat = 3 := congrArg BitVec.toNat hcnt
    obtain ⟨-, reads, -⟩ := formatF24 s hm
    exact (fastEqualsDecInModeZero s hm).trans (reads count b0 b1 b2 h0 h1 h2).2
  · have count : s.cnt.toNat ≠ 3 := fun h => hcnt (BitVec.eq_of_toNat_eq h)
    obtain ⟨-, -, refuses⟩ := formatF24 s hm
    exact (fastEqualsDecInModeZero s hm).trans (refuses count).1
  · exact ⟨_, _, _, _, _, exec_eq_next_iff.2 ⟨.unspecified, if_pos hm, rfl⟩⟩
  · exact step_presenting_of_bare (i := .fast) rfl (by decide) s rest hop

end Sys2Proof.Proofs

/-! Proofs of the family 60_exceptions.md: the bits of ERR that a write sets, and that nothing else depends on ERR. -/

namespace Sys2Proof.Proofs

open Sys2Proof.Machine Sys2Proof.Claims

/-! ### The bits of ERR that a write sets -/

/-- A raised fault sets its own bit, and every other write none (R117). -/
def Write.errBits : Write → BitVec 3
  | .raised k => k.bit
  | _ => 0#3

/-- No write depends on ERR, and each adds its bits to whatever ERR holds (R118). -/
theorem apply_setErr (w : Write) (s : State) (e : BitVec 3) :
    w.apply (s.setErr e) = (w.apply s).setErr (e ||| w.errBits) := by
  cases w with
  | raised k => rfl
  | modecfg | cnt | frame | acc | veq | data | unspecified => simp only [Write.errBits, BitVec.or_zero]; rfl

theorem apply_err (w : Write) (s : State) : (w.apply s).err = s.err ||| w.errBits :=
  congrArg State.err (apply_setErr w s s.err)

/-- A write that sets a bit of ERR does nothing else (R117). -/
theorem apply_of_errBits_ne_zero {w : Write} (h : w.errBits ≠ 0) (s : State) : w.apply s = withErr s w.errBits := by
  cases w with
  | raised k => rfl
  | modecfg | cnt | frame | acc | veq | data | unspecified => exact absurd rfl h

/-- Settles O52: the effect does not read ERR, and its write sets the same bits over every value of ERR. -/
theorem errChangesNoOperation : Obligations.ErrChangesNoOperation := by
  unfold Obligations.ErrChangesNoOperation
  intro i s
  have blind : ∀ e : BitVec 3, effect i { s with err := e } = effect i s :=
    fun e => effect_congr rfl rfl rfl (fun _ _ => rfl) fun _ => rfl
  simp only [exec_eq_outcomeOf_effect, blind]
  cases effect i s with
  | error f => exact ⟨0, fun _ => rfl⟩
  | ok w => exact ⟨w.errBits, fun e => congrArg Host.Outcome.next (apply_setErr w s e)⟩

/-! ### Which fault a word raises -/

theorem pushWrite_errBits (b : Byte) {s : State} (legal : s.cnt.toNat ≤ fbSize) :
    (pushWrite b s).errBits = if s.cnt = 5 then 0b010 else 0 := by
  unfold pushWrite
  split
  · next room => rw [if_neg fun full => absurd room (by rw [full]; decide)]; rfl
  · next full => rw [if_pos (BitVec.eq_of_toNat_eq (legal.antisymm (not_lt.1 full)))]; rfl

theorem decEffect_errBits {s : State} {w : Write} (h : decEffect s = .ok w) :
    w.errBits = if s.cnt.toNat ≠ frameLength s.mode then 0b100 else 0 := by
  split
  · next hn => rw [decEffect, if_neg hn] at h; cases h; rfl
  · next hn => obtain ⟨c, rfl, -⟩ := decEffect_of_count (not_not.1 hn) h; rfl

theorem fastEffect_errBits {s : State} {w : Write} (h : fastEffect s = .ok w) :
    w.errBits = if s.mode = 0 ∧ s.cnt ≠ 3 then 0b100 else 0 := by
  by_cases hm : s.mode = 0
  · have count : s.cnt.toNat ≠ frameLength 0 ↔ s.cnt ≠ 3 := (BitVec.toNat_inj (y := 3#3)).not
    rw [fastEffect_eq_decEffect hm] at h
    rw [decEffect_errBits h]
    simp only [hm, count, true_and]
  · rw [fastEffect, if_pos hm] at h
    cases h
    exact (if_neg fun hboth => hm hboth.1).symm

/-- A word that encodes an instruction raises the bits that the instruction's write sets (R117, R121). -/
theorem raisedBits_of_encode {i : Instr} {v : CmdWord} {s : State} {w : Write} (hi : encode i = .command v)
    (legal : s.cnt.toNat ≤ fbSize) (h : effect i s = .ok w) : raisedBits s v = w.errBits := by
  have hill : illegalWord v = false := by
    obtain ⟨-, he⟩ | ⟨hill, -⟩ := decode_command_spec v
    · cases he.symm.trans (decode_eq_ok_iff.2 hi)
    · exact hill
  rw [raisedBits, hill]
  cases i with
  | fclr | cinit => cases hi; cases h; rfl
  | cupd | cvfy | setm => cases hi; cases h; simp [opField, Write.errBits]
  | push b => cases hi; cases h; rw [pushWrite_errBits b legal]; simp [opField]
  | dec => cases hi; exact (decEffect_errBits h).symm
  | fast => cases hi; exact (fastEffect_errBits h).symm
  | f24 | f24s | f24c | f24sc | f16 | f16s | f16c | f16sc => cases hi

/-- Settles O51: an illegal word sets ILL, and any other makes one write, which sets the bits of the word. -/
theorem faultsInOrderWriteOnlyTheirBit : Obligations.FaultsInOrderWriteOnlyTheirBit := by
  unfold Obligations.FaultsInOrderWriteOnlyTheirBit
  intro s v rest hinv
  obtain ⟨hill, -⟩ | ⟨-, i, -, hi⟩ := decode_command_spec v
  · have hbits : raisedBits s v = 0b001 := if_pos hill
    rw [hbits]
    exact ⟨fun _ => illegalWordsSetOnlyIll.2.2 s v rest hill, fun hzero => absurd hzero (by decide)⟩
  · have hport : (s.setPort rest).Inv := inv_congr hinv rfl rfl
    obtain ⟨w, hw⟩ := exec_completes i hport
    have hbits : raisedBits s v = w.errBits := raisedBits_of_encode hi hport.cntLegal hw
    have hstep : step (presenting s v rest) = .next (w.apply (s.setPort rest)) :=
      (step_presenting_of_encode hi s rest).trans (exec_eq_next_iff.2 ⟨w, hw, rfl⟩)
    rw [hbits, hstep]
    refine ⟨fun hset => congrArg Host.Outcome.next (apply_of_errBits_ne_zero hset _), ?_⟩
    rintro hnone t ⟨⟩
    rw [apply_err, hnone]
    exact BitVec.or_zero

/-! ### Who clears ERR -/

/-- An edge without reset only adds bits to ERR (R123). -/
theorem step_adds_errBits {s t : State} (hrst : ∀ p rest, s.port = p :: rest → p.rst = false) (h : step s = .next t) :
    ∃ bits, t.err = s.err ||| bits := by
  cases hport : s.port with
  | nil => cases (step_of_port_nil hport).symm.trans h; exact ⟨0, BitVec.or_zero.symm⟩
  | cons p rest =>
    have hr := hrst p rest hport
    cases hv : p.cmdValid with
    | false => cases (step_of_idle hport hr hv).symm.trans h; exact ⟨0, BitVec.or_zero.symm⟩
    | true =>
      cases hd : decode (.command p.cmd) with
      | error r => cases (step_of_decode_error hport hr hv hd).symm.trans h; exact ⟨_, rfl⟩
      | ok i =>
        obtain ⟨w, -, rfl⟩ := exec_eq_next_iff.1 ((step_of_decode_ok hport hr hv hd).symm.trans h)
        exact ⟨w.errBits, apply_err w _⟩

/-- Settles O53: without reset bits are only added, and a reset edge takes the reset state's ERR. -/
theorem onlyResetClearsErr : Obligations.OnlyResetClearsErr := by
  unfold Obligations.OnlyResetClearsErr
  refine fun s t h => ⟨fun hrst => ?_, fun p rest hport hr => ?_⟩
  · obtain ⟨bits, hbits⟩ := step_adds_errBits hrst h
    rw [hbits]
    ext j
    rw [BitVec.getElem_and, BitVec.getElem_or]
    exact inf_sup_self
  · cases (step_of_reset hport hr).symm.trans h
    rfl

end Sys2Proof.Proofs

/-! Proofs of the family 70_reset_and_hazards.md: the reset state, and the edge that takes it. -/

namespace Sys2Proof.Proofs

open Sys2Proof.Machine Sys2Proof.Claims

/-- No byte of FB is present after reset (R136): reading any address of it fails. -/
theorem not_holds_reset (a : Nat) (b : Byte) : ¬ holds State.reset a b := by
  unfold holds Memory.readByte
  rw [State.reset_fb]
  split
  · exact nofun
  · exact nofun

/-- The reset a clock edge takes is the reset state in every register of the block (R135). -/
theorem sameBlock_reset_takeReset (s : State) : sameBlock State.reset (takeReset s) :=
  ⟨takeReset_modecfg s, takeReset_cnt s, takeReset_err s, fun _ => rfl, takeReset_acc s, takeReset_sample s,
    takeReset_status s, takeReset_cksum s, takeReset_ckerr s, takeReset_veq s⟩

/-- Settles O1: each register by its value in `State.reset`, mode M24 and `flen` 3 from MODECFG = 0, and FB as absent. -/
theorem resetStateIsAsTabled : Obligations.ResetStateIsAsTabled := by
  unfold Obligations.ResetStateIsAsTabled
  have hmode : DataMode.ofCode State.reset.mode = .m24 := by rw [State.reset_mode]; rfl
  have hflen : State.reset.flen = 3 := by rw [State.flen, State.reset_mode]; rfl
  have hspi3w : State.reset.spi3w = false := by rw [State.spi3w, State.reset_modecfg]; rfl
  exact ⟨State.reset_modecfg, hmode, hflen, hspi3w, State.reset_cnt, State.reset_err, not_holds_reset, State.reset_acc,
    State.reset_sample, State.reset_status, State.reset_cksum, State.reset_ckerr, State.reset_veq⟩

/-- Settles O2: the edge takes `takeReset`, whichever command stands beside `rst = 1`. -/
theorem resetEdgeTakesResetState : Obligations.ResetEdgeTakesResetState := by
  unfold Obligations.ResetEdgeTakesResetState
  intro s p rest hport hrst
  refine ⟨_, step_of_reset hport hrst, sameBlock_reset_takeReset _, ?_⟩
  rw [takeReset_port, State.setPort_port]

/-- Settles O54: the empty buffer is canonical, and CNT = 0 leaves no byte to be present. -/
theorem resetStateMeetsInv : Obligations.ResetStateMeetsInv :=
  inv_of_cnt_zero Memory.reset_wf State.reset_cnt

end Sys2Proof.Proofs
